-- ==== Sys2Proof/Word.lean ====
section
/-!
DEFINITION. The data the core works on (00_scope R8, R10, R11): bytes, the 16-byte block, the 4-byte word of the key
schedule, the 176-byte schedule, the 4 seed bytes; and the closed sets of names the operand fields of a micro-step
word stand for (30_encoding R71, R77, R78), and the bytes of the buffers (10_state R20, 44_countermeasures R190).
-/
namespace Sys2Proof

/-- A byte: 8 bits, bit 7 the most significant (R10). -/
abbrev Byte := BitVec 8

/-- A 16-byte string: a state matrix in column-major order, a key, an IV, a round key (R8, R11). -/
abbrev Block := Vector Byte 16

/-- One 4-byte word of the schedule (R120). -/
abbrev KeyWord := Vector Byte 4

/-- The round-key schedule, 11 round keys of 16 bytes (R8, R25). -/
abbrev Sched := Vector Byte 176

/-- The block a pass works on: field `x` of a micro-step word (R77). -/
inductive Target where
  | state
  | dfaCopy
  | scrState
  deriving DecidableEq, Repr

/-- The key a key addition reads: round key `n`, or `SCR_KEY` for `k = 0x3F` (R77, R136). -/
inductive KeySel where
  | round (n : Fin 11)
  | scratch
  deriving DecidableEq, Repr

/-- The four round kinds; field `op2` of DECOY_GROUP holds a kind's id (R78). -/
inductive RoundKind where
  | round
  | lastRound
  | firstInvRound
  | invRound
  deriving DecidableEq, Repr

/-- The delay classes 0, 1 and 2 of DELAY (R77, R172). -/
inductive DelayClass where
  | short
  | long
  | dualComputation
  deriving DecidableEq, Repr

/-- The six commands a host can issue (R71). -/
inductive Command where
  | expandKey
  | ecbEnc
  | ecbDec
  | cbcEnc
  | cbcDec
  | seed
  deriving DecidableEq, Repr

/-- The four cipher commands; EXPAND_KEY and SEED are the other two (R151 to R154). -/
def Command.isCipher : Command → Bool
  | .ecbEnc | .ecbDec | .cbcEnc | .cbcDec => true
  | .expandKey | .seed => false

/-- The five data buffers of the register map, in the order R205 gives them. -/
inductive DataBuf where
  | state
  | iv
  | key
  | sched
  | seed
  deriving DecidableEq, Repr

/-- A byte of one of the five data buffers of the register map (R20, R52). -/
inductive DataByte where
  | state (j : Fin 16)
  | iv (j : Fin 16)
  | key (j : Fin 16)
  | seed (j : Fin 4)
  | sched (j : Fin 176)
  deriving DecidableEq, Repr

/-- A byte of a buffer that a fault event can replace: a data buffer's or a hidden buffer's (R190). -/
inductive HwByte where
  | data (d : DataByte)
  | dfaCopy (j : Fin 16)
  | scrState (j : Fin 16)
  | scrKey (j : Fin 16)
  deriving DecidableEq, Repr

end Sys2Proof
end

