-- ==== Sys2Proof/Syntax.lean ====
section
/-!
DEFINITION. The instructions: one constructor per row of spec/opcode_table.json, in its order. Three levels
(30_encoding): command bytes (R71), host transactions (R74), and the sequencer's micro-steps and macros (R77, R78)
with the combinational functions (R80).
-/
namespace Sys2Proof

/-- The instruction set. The docstring of a constructor names its row and rule. -/
inductive Instr where
  /-- EXPAND_KEY, command byte 0x01 (R122). -/
  | expandKey
  /-- ECB_ENC, command byte 0x02 (R151). -/
  | ecbEnc
  /-- ECB_DEC, command byte 0x03 (R152). -/
  | ecbDec
  /-- CBC_ENC, command byte 0x04 (R153). -/
  | cbcEnc
  /-- CBC_DEC, command byte 0x05 (R154). -/
  | cbcDec
  /-- SEED, command byte 0x06 (R156). -/
  | seed
  /-- HOST_WR: the host writes byte `d` to address `a` (R56, R74). -/
  | hostWr (a d : Byte)
  /-- HOST_RD: the host reads one byte from address `a` (R55, R74). -/
  | hostRd (a : Byte)
  /-- KEY_COPY, op 0x50 (R123). -/
  | keyCopy
  /-- KEY_WORD i, op 0x51, i in 4..43 (R124). -/
  | keyWord (i : Fin 44)
  /-- SUB_BYTES X, op 0x60 (R130). -/
  | subBytes (x : Target)
  /-- INV_SUB_BYTES X, op 0x61 (R131). -/
  | invSubBytes (x : Target)
  /-- SHIFT_ROWS X, op 0x62 (R132). -/
  | shiftRows (x : Target)
  /-- INV_SHIFT_ROWS X, op 0x63 (R133). -/
  | invShiftRows (x : Target)
  /-- MIX_COLUMNS X, op 0x64 (R134). -/
  | mixColumns (x : Target)
  /-- INV_MIX_COLUMNS X, op 0x65 (R135). -/
  | invMixColumns (x : Target)
  /-- ADD_ROUND_KEY X, k, op 0x66 (R136). -/
  | addRoundKey (x : Target) (k : KeySel)
  /-- XOR_IV X, op 0x67 (R150). -/
  | xorIv (x : Target)
  /-- ROUND X, k, macro, op 0x70 (R140). -/
  | round (x : Target) (k : KeySel)
  /-- LAST_ROUND X, k, macro, op 0x71 (R141). -/
  | lastRound (x : Target) (k : KeySel)
  /-- FIRST_INV_ROUND X, k, macro, op 0x72 (R142). -/
  | firstInvRound (x : Target) (k : KeySel)
  /-- INV_ROUND X, k, macro, op 0x73 (R143). -/
  | invRound (x : Target) (k : KeySel)
  /-- IDLE, op 0x80 (R171). -/
  | idle
  /-- DELAY c, macro, op 0x81 (R172). -/
  | delay (c : DelayClass)
  /-- DECOY_GROUP K X, n, macro, op 0x82 with the round kind in op2 (R175, R78). -/
  | decoyGroup (kind : RoundKind) (x : Target) (n : Fin 11)
  /-- DECOY_FILL, op 0x83 (R176). -/
  | decoyFill
  /-- DFA_SNAPSHOT, op 0x84 (R181). -/
  | dfaSnapshot
  /-- DFA_COMPARE, op 0x85 (R182). -/
  | dfaCompare
  /-- DUAL, macro, op 0x86 (R181). -/
  | dual
  /-- PRNG_SEED, op 0x87 (R156). -/
  | prngSeed
  /-- SBOX_LOOKUP, function id 0x40, with its operand byte (R80, R104). -/
  | sboxLookup (b : Byte)
  /-- INV_SBOX_LOOKUP, function id 0x41, with its operand byte (R80, R105). -/
  | invSboxLookup (b : Byte)
  /-- GF_MUL, function id 0x42, with its three operand bytes (R80, R100). -/
  | gfMul (a b poly : Byte)
  deriving DecidableEq, Repr

end Sys2Proof
end

