-- ==== Sys2Proof/WellFormed.lean ====
section
/-!
DEFINITION. Which instructions are well formed: the operand limits of 30_encoding R77 and R78 that the types of the
fields do not already carry.
-/
namespace Sys2Proof

/-- The operand of ROUND and INV_ROUND: a round key 1..9, or `SCR_KEY` (R77). -/
def KeySel.isInner : KeySel → Bool
  | .round n => 1 ≤ n.val && n.val ≤ 9
  | .scratch => true

/-- The operand of LAST_ROUND and FIRST_INV_ROUND: round key 10, or `SCR_KEY` (R77). -/
def KeySel.isOuter : KeySel → Bool
  | .round n => n.val == 10
  | .scratch => true

/-- The operand limit of a round kind (R77, R78). -/
def RoundKind.takes : RoundKind → KeySel → Bool
  | .round, k | .invRound, k => k.isInner
  | .lastRound, k | .firstInvRound, k => k.isOuter

/-- A target of a real invocation: `STATE` or `DFA_COPY` (R78, R150). -/
def Target.isReal : Target → Bool
  | .state | .dfaCopy => true
  | .scrState => false

/-- The operands of an instruction are ones its row admits (R77, R78; XOR_IV's target is R150's). -/
def Instr.wf : Instr → Bool
  | .keyWord i => 4 ≤ i.val
  | .xorIv x => x.isReal
  | .round _ k => RoundKind.round.takes k
  | .lastRound _ k => RoundKind.lastRound.takes k
  | .firstInvRound _ k => RoundKind.firstInvRound.takes k
  | .invRound _ k => RoundKind.invRound.takes k
  | .decoyGroup kind x n => x.isReal && kind.takes (.round n)
  | .expandKey | .ecbEnc | .ecbDec | .cbcEnc | .cbcDec | .seed => true
  | .hostWr _ _ | .hostRd _ => true
  | .keyCopy | .subBytes _ | .invSubBytes _ | .shiftRows _ | .invShiftRows _ => true
  | .mixColumns _ | .invMixColumns _ | .addRoundKey _ _ => true
  | .idle | .delay _ | .decoyFill | .dfaSnapshot | .dfaCompare | .dual | .prngSeed => true
  | .sboxLookup _ | .invSboxLookup _ | .gfMul _ _ _ => true

end Sys2Proof
end

