-- ==== Sys2Proof/Decode.lean ====
section
/-!
DEFINITION. The decoder and, after it, the encoder (30_encoding R71 to R81). A word comes from one of five places and
is numbered as its rule numbers it: the byte on CMD (R71), the 17-bit host transaction (R74), the 16-bit micro-step
word (R77), the 24-bit word of DECOY_GROUP (R78), and a function call: the 8-bit id of R80 with the operand bytes above
it (log 11). Every word decodes to an instruction or is refused by name.
-/
namespace Sys2Proof

/-- A word of the instruction set, by the place it comes from. -/
inductive RawWord where
  | cmd (v : BitVec 8)
  | host (t : BitVec 17)
  | ustep (u : BitVec 16)
  | ustep24 (u : BitVec 24)
  | func (f : BitVec 32)
  deriving DecidableEq, Repr

/-- Why a word is no instruction. -/
inductive DecodeError where
  /-- A command byte other than 0x01 to 0x06 (R73). -/
  | reservedCommand (v : Byte)
  /-- An op byte that is no row of R77, or DECOY_GROUP's in a 16-bit word. -/
  | unknownOp (op : Byte)
  /-- Field `x` is 3, which is never produced (R77). -/
  | targetNeverProduced
  /-- Field `x` names a target the row does not take (R78, R150). -/
  | wrongTarget
  /-- A field the row does not use is not 0 (R77). -/
  | unusedFieldSet
  /-- Field `k` is outside what the row takes (R77, R78). -/
  | operandOutOfRange (k : BitVec 6)
  /-- `op2` is no round kind's id (R78). -/
  | notARoundKind (op2 : Byte)
  /-- A function id other than 0x40 to 0x42 (R80). -/
  | unknownFunction (id : Byte)
  deriving DecidableEq, Repr

/-- Field `x`, bits 7:6 (R77): 0 = STATE, 1 = DFA_COPY, 2 = SCR_STATE, 3 is never produced. -/
def decodeTarget (x : BitVec 2) : Except DecodeError Target :=
  match x.toNat with
  | 0 => .ok .state
  | 1 => .ok .dfaCopy
  | 2 => .ok .scrState
  | _ => .error .targetNeverProduced

/-- Field `k` as a key selector: 0 to 10 a round key, 0x3F `SCR_KEY` (R77, R136). -/
def decodeKey (k : BitVec 6) : Except DecodeError KeySel :=
  if h : k.toNat < 11 then .ok (.round ⟨k.toNat, h⟩)
  else if k = 0x3F#6 then .ok .scratch
  else .error (.operandOutOfRange k)

/-- The command a byte written to CMD names, whatever the build (R71). -/
def decodeCommand (v : Byte) : Option Command :=
  match v.toNat with
  | 0x01 => some .expandKey
  | 0x02 => some .ecbEnc
  | 0x03 => some .ecbDec
  | 0x04 => some .cbcEnc
  | 0x05 => some .cbcDec
  | 0x06 => some .seed
  | _ => none

/-- The instruction of a command. -/
def Command.instr : Command → Instr
  | .expandKey => .expandKey
  | .ecbEnc => .ecbEnc
  | .ecbDec => .ecbDec
  | .cbcEnc => .cbcEnc
  | .cbcDec => .cbcDec
  | .seed => .seed

/-- A host transaction: bit 16 `w`, bits 15:8 `a`, bits 7:0 `d`. All 2^17 words are legal (R74), so a read's `d` is
not looked at (log 12). -/
def decodeHost (t : BitVec 17) : Instr :=
  if t.getLsbD 16 then .hostWr (t.extractLsb' 8 8) (t.extractLsb' 0 8)
  else .hostRd (t.extractLsb' 8 8)

/-- A row with no operand: `x` and `k` are 0 (R77). -/
def bare (x : BitVec 2) (k : BitVec 6) (i : Instr) : Except DecodeError Instr :=
  if x = 0#2 ∧ k = 0#6 then .ok i else .error .unusedFieldSet

/-- A pass that takes a target and no other operand: `k` is 0 (R77). -/
def onTarget (x : BitVec 2) (k : BitVec 6) (f : Target → Instr) : Except DecodeError Instr :=
  if k = 0#6 then (decodeTarget x).map f else .error .unusedFieldSet

/-- A row that takes a target and a key selector which passes `lim` (R77). -/
def onTargetKey (x : BitVec 2) (k : BitVec 6) (lim : KeySel → Bool) (f : Target → KeySel → Instr) :
    Except DecodeError Instr :=
  match decodeTarget x, decodeKey k with
  | .ok t, .ok s => if lim s then .ok (f t s) else .error (.operandOutOfRange k)
  | .error e, _ => .error e
  | _, .error e => .error e

/-- KEY_WORD's word index, 4 to 43 (R77, R124). -/
def decodeWordIndex (k : BitVec 6) : Except DecodeError Instr :=
  if h : 4 ≤ k.toNat ∧ k.toNat < 44 then .ok (.keyWord ⟨k.toNat, h.2⟩)
  else .error (.operandOutOfRange k)

/-- DELAY's class: 0 short, 1 long, 2 dual-computation (R77, R172). -/
def decodeClass (k : BitVec 6) : Except DecodeError Instr :=
  match k.toNat with
  | 0 => .ok (.delay .short)
  | 1 => .ok (.delay .long)
  | 2 => .ok (.delay .dualComputation)
  | _ => .error (.operandOutOfRange k)

/-- A 16-bit micro-step word `op[15:8] x[7:6] k[5:0]` (R77). -/
def decodeStep (u : BitVec 16) : Except DecodeError Instr :=
  let op : Byte := u.extractLsb' 8 8
  let x : BitVec 2 := u.extractLsb' 6 2
  let k : BitVec 6 := u.extractLsb' 0 6
  match op.toNat with
  | 0x50 => bare x k .keyCopy
  | 0x51 => if x = 0#2 then decodeWordIndex k else .error .unusedFieldSet
  | 0x60 => onTarget x k .subBytes
  | 0x61 => onTarget x k .invSubBytes
  | 0x62 => onTarget x k .shiftRows
  | 0x63 => onTarget x k .invShiftRows
  | 0x64 => onTarget x k .mixColumns
  | 0x65 => onTarget x k .invMixColumns
  | 0x66 => onTargetKey x k (fun _ => true) .addRoundKey
  | 0x67 => if x = 2#2 then .error .wrongTarget else onTarget x k .xorIv
  | 0x70 => onTargetKey x k RoundKind.round.takes .round
  | 0x71 => onTargetKey x k RoundKind.lastRound.takes .lastRound
  | 0x72 => onTargetKey x k RoundKind.firstInvRound.takes .firstInvRound
  | 0x73 => onTargetKey x k RoundKind.invRound.takes .invRound
  | 0x80 => bare x k .idle
  | 0x81 => if x = 0#2 then decodeClass k else .error .unusedFieldSet
  | 0x83 => bare x k .decoyFill
  | 0x84 => bare x k .dfaSnapshot
  | 0x85 => bare x k .dfaCompare
  | 0x86 => bare x k .dual
  | 0x87 => bare x k .prngSeed
  | _ => .error (.unknownOp op)

/-- The round kind whose id `op2` is (R77, R78). -/
def decodeKind (op2 : Byte) : Except DecodeError RoundKind :=
  match op2.toNat with
  | 0x70 => .ok .round
  | 0x71 => .ok .lastRound
  | 0x72 => .ok .firstInvRound
  | 0x73 => .ok .invRound
  | _ => .error (.notARoundKind op2)

/-- The 24-bit word of DECOY_GROUP: `op[23:16] x[15:14] n[13:8] op2[7:0]` (R78). -/
def decodeGroup (u : BitVec 24) : Except DecodeError Instr :=
  let op : Byte := u.extractLsb' 16 8
  let n : BitVec 6 := u.extractLsb' 8 6
  if op ≠ 0x82#8 then .error (.unknownOp op)
  else match decodeTarget (u.extractLsb' 14 2), decodeKey n, decodeKind (u.extractLsb' 0 8) with
    | .error e, _, _ => .error e
    | .ok _, .error e, _ => .error e
    | .ok _, .ok _, .error e => .error e
    | .ok .scrState, .ok _, .ok _ => .error .wrongTarget
    | .ok _, .ok .scratch, .ok _ => .error (.operandOutOfRange n)
    | .ok t, .ok (.round m), .ok kind =>
      if kind.takes (.round m) then .ok (.decoyGroup kind t m) else .error (.operandOutOfRange n)

/-- A function call: the id of R80 in bits 7:0, the operand bytes above it; a byte the function does not take is 0
(log 11). -/
def decodeFunction (f : BitVec 32) : Except DecodeError Instr :=
  let a : Byte := f.extractLsb' 8 8
  let id : Byte := f.extractLsb' 0 8
  match id.toNat with
  | 0x40 => if f.extractLsb' 16 16 = 0#16 then .ok (.sboxLookup a) else .error .unusedFieldSet
  | 0x41 => if f.extractLsb' 16 16 = 0#16 then .ok (.invSboxLookup a) else .error .unusedFieldSet
  | 0x42 => .ok (.gfMul a (f.extractLsb' 16 8) (f.extractLsb' 24 8))
  | _ => .error (.unknownFunction id)

/-- The instruction of a word, or the reason it is none. -/
def decode : RawWord → Except DecodeError Instr
  | .cmd v =>
    match decodeCommand v with
    | some c => .ok c.instr
    | none => .error (.reservedCommand v)
  | .host t => .ok (decodeHost t)
  | .ustep u => decodeStep u
  | .ustep24 u => decodeGroup u
  | .func f => decodeFunction f

/-- The word that `nbits` bits with the value `w` are, numbered as the opcode table numbers them. One byte is a command
byte or, for an id of R80, a function call with operand bytes 0; two bytes a micro-step word; three bytes a host
transaction, whose bits 23:17 are 0, or DECOY_GROUP's word (log 20). -/
def rawOfTable (nbits w : Nat) : Option RawWord :=
  if w < 2 ^ nbits then
    match (nbits + 7) / 8 with
    | 1 => if 0x40 ≤ w ∧ w ≤ 0x42 then some (.func (BitVec.ofNat 32 w)) else some (.cmd (BitVec.ofNat 8 w))
    | 2 => some (.ustep (BitVec.ofNat 16 w))
    | 3 => if w < 2 ^ 17 then some (.host (BitVec.ofNat 17 w)) else some (.ustep24 (BitVec.ofNat 24 w))
    | 4 => some (.func (BitVec.ofNat 32 w))
    | _ => none
  else none

/-- The instruction the decoder reads from a word of `nbits` bits numbered as spec/opcode_table.json numbers them. -/
def decodeTableWord (nbits w : Nat) : Option Instr :=
  match rawOfTable nbits w with
  | some r =>
    match decode r with
    | .ok i => some i
    | .error _ => none
  | none => none

/-! ### The encoder, from the same tables -/

/-- The byte of a command (R71). -/
def Command.byte : Command → Byte
  | .expandKey => 0x01
  | .ecbEnc => 0x02
  | .ecbDec => 0x03
  | .cbcEnc => 0x04
  | .cbcDec => 0x05
  | .seed => 0x06

/-- Field `x` of a target (R77). -/
def Target.code : Target → BitVec 2
  | .state => 0
  | .dfaCopy => 1
  | .scrState => 2

/-- Field `k` of a key selector (R77). -/
def KeySel.code : KeySel → BitVec 6
  | .round n => BitVec.ofNat 6 n.val
  | .scratch => 0x3F

/-- Field `k` of a delay class (R77). -/
def DelayClass.code : DelayClass → BitVec 6
  | .short => 0
  | .long => 1
  | .dualComputation => 2

/-- The id of a round kind (R77). -/
def RoundKind.op : RoundKind → Byte
  | .round => 0x70
  | .lastRound => 0x71
  | .firstInvRound => 0x72
  | .invRound => 0x73

/-- A micro-step word from its three fields (R77). -/
def stepWord (op : Byte) (x : BitVec 2) (k : BitVec 6) : RawWord := .ustep (op ++ x ++ k)

/-- The word of an instruction. -/
def encode : Instr → RawWord
  | .expandKey => .cmd Command.expandKey.byte
  | .ecbEnc => .cmd Command.ecbEnc.byte
  | .ecbDec => .cmd Command.ecbDec.byte
  | .cbcEnc => .cmd Command.cbcEnc.byte
  | .cbcDec => .cmd Command.cbcDec.byte
  | .seed => .cmd Command.seed.byte
  | .hostWr a d => .host (1#1 ++ a ++ d)
  | .hostRd a => .host (0#1 ++ a ++ 0#8)
  | .keyCopy => stepWord 0x50 0 0
  | .keyWord i => stepWord 0x51 0 (BitVec.ofNat 6 i.val)
  | .subBytes x => stepWord 0x60 x.code 0
  | .invSubBytes x => stepWord 0x61 x.code 0
  | .shiftRows x => stepWord 0x62 x.code 0
  | .invShiftRows x => stepWord 0x63 x.code 0
  | .mixColumns x => stepWord 0x64 x.code 0
  | .invMixColumns x => stepWord 0x65 x.code 0
  | .addRoundKey x k => stepWord 0x66 x.code k.code
  | .xorIv x => stepWord 0x67 x.code 0
  | .round x k => stepWord 0x70 x.code k.code
  | .lastRound x k => stepWord 0x71 x.code k.code
  | .firstInvRound x k => stepWord 0x72 x.code k.code
  | .invRound x k => stepWord 0x73 x.code k.code
  | .idle => stepWord 0x80 0 0
  | .delay c => stepWord 0x81 0 c.code
  | .decoyGroup kind x n => .ustep24 (0x82#8 ++ x.code ++ (KeySel.round n).code ++ kind.op)
  | .decoyFill => stepWord 0x83 0 0
  | .dfaSnapshot => stepWord 0x84 0 0
  | .dfaCompare => stepWord 0x85 0 0
  | .dual => stepWord 0x86 0 0
  | .prngSeed => stepWord 0x87 0 0
  | .sboxLookup b => .func (0#16 ++ b ++ 0x40#8)
  | .invSboxLookup b => .func (0#16 ++ b ++ 0x41#8)
  | .gfMul a b poly => .func (poly ++ b ++ a ++ 0x42#8)

end Sys2Proof
end

