-- ==== Sys2Proof/Config.lean ====
section
/-!
DEFINITION. What a build fixes (00_scope R7, R9) and the free values. The four build flags are the CONFIG register's
storage and stand in State. The open parameters are constants with no body, so a statement holds whatever they are:
the draws (R12, D12), the generator Prng (D11), the delay bounds (D13), a fault model other than the named ones (D18),
RCON[0] and RCON[11] (D21).
-/
namespace Sys2Proof.Config

/-- The four build flags (R7), bits 0 to 3 of CONFIG (R29). A build has any of the 16 values. -/
structure BuildFlags where
  encEn : Bool
  rdelayEn : Bool
  dummyEn : Bool
  antidfaEn : Bool
  deriving DecidableEq, Repr

/-- The default build: every flag 0 (R7, D25). -/
def defaultBuild : BuildFlags :=
  { encEn := false, rdelayEn := false, dummyEn := false, antidfaEn := false }

/-- What an agent has done: one entry of the run so far (R190; log 16). -/
inductive RunEvent where
  /-- The host ran a transaction line (R82). -/
  | host (t : BitVec 17)
  /-- The host polled STATUS in `wait` (R83). -/
  | poll
  /-- The sequencer performed a micro-step (R76). -/
  | core (u : Instr)
  /-- The environment reset the core (R230). -/
  | reset
  /-- The environment replaced a byte (R190). -/
  | corrupt (b : HwByte) (v : Byte)
  /-- A function was exercised by itself (log 11). -/
  | func (f : BitVec 32)
  deriving DecidableEq, Repr

/-- The parameter FaultModel (R9, R190): which byte corruptions the environment may make. The default is `none`;
`onePerCommand` and `any` are the alternatives the rule names; `given` is any other predicate, `givenFaultModel`. -/
inductive FaultModel where
  | none
  | onePerCommand
  | any
  | given
  deriving DecidableEq, Repr

/-- FREE VALUE: an arbitrary fault model, a predicate on the fault event (a byte and its new value) and the run so far,
newest first, of a build (R190; log 16). -/
opaque givenFaultModel : BuildFlags → List RunEvent → HwByte → Byte → Bool

/-- The number of states of the generator, less one (log 1). -/
opaque prngSize : Nat

/-- The state type σ of the parameter `Prng` (R9): an open, nonempty finite type, its states numbered (log 1). -/
abbrev PrngState := Fin (prngSize + 1)

/-- FREE VALUE: the draw numbered `n`, where the spec says `draw(Byte)` (R12; log 2). -/
opaque freeByte : Nat → Byte

/-- FREE VALUE: the draw numbered `n` of a number, brought into its range where it is used (R172, R175; log 2). -/
opaque freeNat : Nat → Nat

/-- FREE VALUE: the draw numbered `n` of a generator state, where the spec says `draw(Prng.σ)` (R12; log 2). -/
opaque freePrng : Nat → PrngState

/-- The parameter `Prng.seed` (R9, R156; log 1). -/
opaque prngSeed : Vector Byte 4 → PrngState

/-- The parameter `Prng.next`, the generator's update function (R9, 10_state R32). Every rule that advances the generator
takes a draw of σ in its place (R12, D12), so no rule reads it (log 1). -/
opaque prngNext : PrngState → PrngState

/-- The parameter SHORT_DELAY_MIN (R9; log 3). -/
opaque shortDelayMin : Nat

/-- How far SHORT_DELAY_MAX lies above SHORT_DELAY_MIN (log 3). -/
opaque shortDelaySpan : Nat

/-- The parameter LONG_DELAY_MIN (R9; log 3). -/
opaque longDelayMin : Nat

/-- How far LONG_DELAY_MAX lies above the larger of LONG_DELAY_MIN and SHORT_DELAY_MAX (log 3). -/
opaque longDelaySpan : Nat

/-- The parameter DFA_DELAY_MIN (R9; log 3). -/
opaque dfaDelayMin : Nat

/-- How far DFA_DELAY_MAX lies above DFA_DELAY_MIN (log 3). -/
opaque dfaDelaySpan : Nat

/-- The parameter SHORT_DELAY_MAX (R9). -/
def shortDelayMax : Nat := shortDelayMin + shortDelaySpan

/-- The parameter LONG_DELAY_MAX (R9): at least LONG_DELAY_MIN and at least SHORT_DELAY_MAX (D13). -/
def longDelayMax : Nat := max longDelayMin shortDelayMax + longDelaySpan

/-- The parameter DFA_DELAY_MAX (R9). -/
def dfaDelayMax : Nat := dfaDelayMin + dfaDelaySpan

/-- The lower bound of a delay class (R172). -/
def delayMin : DelayClass → Nat
  | .short => shortDelayMin
  | .long => longDelayMin
  | .dualComputation => dfaDelayMin

/-- The upper bound of a delay class (R172). -/
def delayMax : DelayClass → Nat
  | .short => shortDelayMax
  | .long => longDelayMax
  | .dualComputation => dfaDelayMax

/-- FREE VALUE: RCON[0], which no rule reads (R109, D21; log 4). -/
opaque rcon0 : Byte

/-- FREE VALUE: RCON[11], which no rule reads (R109, D21; log 4). -/
opaque rcon11 : Byte

end Sys2Proof.Config
end

