-- ==== Sys2Proof/Machine/Cipher.lean ====
section
/-!
DEFINITION. The pure functions of the core on byte strings: the passes (42_round_transform), the key schedule
(41_key_schedule) and the whole-block functions the driver's rules give as net effects (43_driver). Byte `4c + r` of a
block is row r, column c (00_scope R11).
-/
namespace Sys2Proof.Machine

/-- Byte-wise exclusive-or of two blocks (R10). -/
def xorBlock (x y : Block) : Block := Vector.ofFn fun j => x[j] ^^^ y[j]

/-- The block of sixteen zero bytes, `0^16` (R10). -/
def zeroBlock : Block := Vector.replicate 16 0

/-! ### Passes -/

/-- SubBytes (R130). -/
def subBytes (x : Block) : Block := Vector.ofFn fun j => sbox x[j]

/-- InvSubBytes (R131). -/
def invSubBytes (x : Block) : Block := Vector.ofFn fun j => invSbox x[j]

/-- ShiftRows: `X'[r,c] = X[r, (c + r) mod 4]` (R132). -/
def shiftRows (x : Block) : Block :=
  Vector.ofFn fun j => x[4 * ((j.val / 4 + j.val % 4) % 4) + j.val % 4]

/-- InvShiftRows: `X'[r,c] = X[r, (c + 4 - r) mod 4]` (R133). -/
def invShiftRows (x : Block) : Block :=
  Vector.ofFn fun j => x[4 * ((j.val / 4 + 4 - j.val % 4) % 4) + j.val % 4]

/-- Row `r` of a mixed column (R134). -/
def mixByte (s0 s1 s2 s3 : Byte) : Nat → Byte
  | 0 => gfm 0x02 s0 ^^^ gfm 0x03 s1 ^^^ s2 ^^^ s3
  | 1 => s0 ^^^ gfm 0x02 s1 ^^^ gfm 0x03 s2 ^^^ s3
  | 2 => s0 ^^^ s1 ^^^ gfm 0x02 s2 ^^^ gfm 0x03 s3
  | _ => gfm 0x03 s0 ^^^ s1 ^^^ s2 ^^^ gfm 0x02 s3

/-- Row `r` of an inversely mixed column (R135). -/
def invMixByte (s0 s1 s2 s3 : Byte) : Nat → Byte
  | 0 => gfm 0x0e s0 ^^^ gfm 0x0b s1 ^^^ gfm 0x0d s2 ^^^ gfm 0x09 s3
  | 1 => gfm 0x09 s0 ^^^ gfm 0x0e s1 ^^^ gfm 0x0b s2 ^^^ gfm 0x0d s3
  | 2 => gfm 0x0d s0 ^^^ gfm 0x09 s1 ^^^ gfm 0x0e s2 ^^^ gfm 0x0b s3
  | _ => gfm 0x0b s0 ^^^ gfm 0x0d s1 ^^^ gfm 0x09 s2 ^^^ gfm 0x0e s3

/-- A function of the four rows of a column, applied to every column (R134, R135, R144). -/
def onColumns (f : Byte → Byte → Byte → Byte → Nat → Byte) (x : Block) : Block :=
  Vector.ofFn fun j =>
    f x[4 * (j.val / 4)] x[4 * (j.val / 4) + 1] x[4 * (j.val / 4) + 2] x[4 * (j.val / 4) + 3] (j.val % 4)

/-- MixColumns (R134). -/
def mixColumns (x : Block) : Block := onColumns mixByte x

/-- InvMixColumns (R135). -/
def invMixColumns (x : Block) : Block := onColumns invMixByte x

/-! ### Key schedule -/

/-- Round key n: bytes 16n to 16n+15 of the schedule (R11, R25). -/
def roundKey (r : Sched) (n : Fin 11) : Block := Vector.ofFn fun j => r[16 * n.val + j.val]

/-- Word i: bytes 4i to 4i+3 of the schedule (R120). -/
def wordAt (r : Sched) (i : Fin 44) : KeyWord := Vector.ofFn fun j => r[4 * i.val + j.val]

/-- The schedule with word i replaced (R120, R124). -/
def setWord (r : Sched) (i : Fin 44) (w : KeyWord) : Sched :=
  Vector.ofFn fun j => if j.val / 4 = i.val then w[j.val % 4] else r[j]

/-- The schedule with round key 0 replaced (R123). -/
def setRoundKey0 (r : Sched) (k : Block) : Sched :=
  Vector.ofFn fun j => if h : j.val < 16 then k[j.val] else r[j]

/-- What R121's loop does to the previous word when `i mod 4 = 0`: rotate left by one byte, substitute, and add the
round constant `RCON[i/4]` to the first byte. -/
def rotSubRcon (i : Fin 44) (t : KeyWord) : KeyWord :=
  #v[sbox t[1] ^^^ rcon ⟨i.val / 4, by omega⟩, sbox t[2], sbox t[3], sbox t[0]]

/-- Word i from word i-1 and word i-4: one iteration of R121's loop (R124). -/
def nextWord (i : Fin 44) (prev back : KeyWord) : KeyWord :=
  let t := if i.val % 4 = 0 then rotSubRcon i prev else prev
  Vector.ofFn fun j => t[j] ^^^ back[j]

/-- The index of the word `d` places before word i. -/
def wordBefore (i : Fin 44) (d : Nat) : Fin 44 := ⟨i.val - d, by omega⟩

/-- One iteration of R121's loop on the schedule. -/
def expandWord (r : Sched) (i : Fin 44) : Sched :=
  setWord r i (nextWord i (wordAt r (wordBefore i 1)) (wordAt r (wordBefore i 4)))

/-- The word indexes 4, 5, ..., 43 in order (R121, R122). -/
def wordIndexes : List (Fin 44) := (List.finRange 44).drop 4

/-- KeyExpand(K) (R121). -/
def keyExpand (k : Block) : Sched :=
  wordIndexes.foldl expandWord (setRoundKey0 (Vector.replicate 176 0) k)

/-! ### Whole blocks -/

/-- The round indexes 1, 2, ..., 9 (R151). -/
def innerRounds : List (Fin 11) := [1, 2, 3, 4, 5, 6, 7, 8, 9]

/-- The net effect of ROUND with key `k` (R140). -/
def roundFn (x k : Block) : Block := xorBlock (mixColumns (shiftRows (subBytes x))) k

/-- The net effect of LAST_ROUND with key `k` (R141). -/
def lastRoundFn (x k : Block) : Block := xorBlock (shiftRows (subBytes x)) k

/-- The net effect of FIRST_INV_ROUND with key `k` (R142). -/
def firstInvRoundFn (x k : Block) : Block := invSubBytes (invShiftRows (xorBlock x k))

/-- The net effect of INV_ROUND with key `k` (R143). -/
def invRoundFn (x k : Block) : Block := invSubBytes (invShiftRows (invMixColumns (xorBlock x k)))

/-- Enc(S, R) (R151). -/
def enc (s : Block) (r : Sched) : Block :=
  lastRoundFn (innerRounds.foldl (fun x n => roundFn x (roundKey r n)) (xorBlock s (roundKey r 0))) (roundKey r 10)

/-- Dec(S, R) (R152). -/
def dec (s : Block) (r : Sched) : Block :=
  xorBlock (innerRounds.reverse.foldl (fun x n => invRoundFn x (roundKey r n)) (firstInvRoundFn s (roundKey r 10)))
    (roundKey r 0)

end Sys2Proof.Machine
end

