-- ==== Sys2Proof/Machine/State.lean ====
section
/-!
DEFINITION. The machine's state: every storage element of 10_state R20, the ghost components of R36, and the model's
own fields (the host and the environment around the core, and the numbering of draws). Plain data throughout.
-/
namespace Sys2Proof.Machine

/-- The spec's ModelFault, a closed type with two constructors (60_exceptions R205). A model fault is RECORDED in
`State.faults` while the machine goes on; no step ends with one. -/
inductive Fault where
  /-- A micro-step read byte `j` of buffer `e` while it was unwritten; raised by the core's reads (R205). Safe: the
  step completes with a free value, and no claim about a run with a recorded fault is acceptable. -/
  | unwrittenRead (e : DataBuf) (j : Nat)
  /-- The host wrote `v` to `a` while BUSY = 1; raised by HOST_WR and the command writes (R57, R205). Safe: the write
  changes nothing, and no claim about a run with a recorded fault is acceptable. -/
  | hostWriteWhileBusy (a v : Byte)
  deriving DecidableEq, Repr

/-- Why a step has no meaning. -/
inductive Refusal where
  /-- The instruction has no meaning yet; raised by `exec` alone. Safe. -/
  | notModelled (mnemonic : String)
  /-- A macro stands outside a running list, so there is no list to expand it in; raised by the macros at Idle (R76,
  R79: the sequencer never produces it there). Safe. -/
  | macroOutsideList
  /-- DUAL under a command that has no cipher body; raised by DUAL (R181, R79: never produced). Safe. -/
  | dualWithoutBody
  /-- KEY_WORD with an index below 4; raised by KEY_WORD (R77, R79: never produced). Safe. -/
  | wordIndexTooLow
  /-- The fault model admits no such injection; raised by the environment's turn (R190). Safe. -/
  | injectionNotAdmitted
  /-- A word given to the functions by themselves that names none; raised by the functions' own turn (R80). Safe. -/
  | notAFunction
  deriving DecidableEq, Repr

/-- The sequencer (R31): Idle, or running a command with the micro-steps still to perform. -/
inductive Seq where
  | idle
  | running (cmd : Command) (rest : List Instr)
  deriving DecidableEq, Repr

/-- The ghost `written`: one bit per byte of the five data buffers (R36). -/
structure WrittenBits where
  state : Vector Bool 16
  iv : Vector Bool 16
  key : Vector Bool 16
  sched : Vector Bool 176
  seed : Vector Bool 4
  deriving DecidableEq, Repr

/-- Nothing written, as after a reset (R38, R230). -/
def WrittenBits.clear : WrittenBits :=
  { state := Vector.replicate 16 false, iv := Vector.replicate 16 false, key := Vector.replicate 16 false,
    sched := Vector.replicate 176 false, seed := Vector.replicate 4 false }

/-- A line of a host program: one transaction word, or the polling loop `wait` (R82, R83). -/
inductive HostLine where
  | txn (t : BitVec 17)
  | wait
  deriving DecidableEq, Repr

/-- One agent's turn (R50, R211). `func` is the model's own: it exercises a combinational function by itself, as no
agent of the core does (R80, D33; log 11). -/
inductive Turn where
  | host
  | core
  | reset
  | corrupt (b : HwByte) (v : Byte)
  | func (f : BitVec 32)
  deriving DecidableEq, Repr

/-- The machine. -/
structure State where
  /-- `STATE[0..15]` (R22). -/
  state : Block
  /-- `IV[0..15]` (R23). -/
  iv : Block
  /-- `KEY[0..15]` (R24). -/
  key : Block
  /-- `SCHED[0..175]` (R25). -/
  sched : Sched
  /-- `SEED[0..3]` (R26). -/
  seed : Vector Byte 4
  /-- The storage of `CONFIG` (R29); no step changes it. -/
  config : Config.BuildFlags
  /-- `prng` (R32). -/
  prng : Config.PrngState
  /-- `DFA_COPY[0..15]` (R33). -/
  dfaCopy : Block
  /-- `SCR_STATE[0..15]` (R34). -/
  scrState : Block
  /-- `SCR_KEY[0..15]` (R34). -/
  scrKey : Block
  /-- `seq`, which is also the home of `STATUS.BUSY` (R31). -/
  seq : Seq
  /-- Ghost `written` (R36). -/
  written : WrittenBits
  /-- Ghost `faults`, oldest first (R36, R205). -/
  faults : List Fault
  /-- Ghost `refused` (R36, R207). -/
  refused : Bool
  /-- Ghost `mismatch` (R36, R182). -/
  mismatch : Nat
  /-- Model: how many draws have been taken (log 2). -/
  draws : Nat
  /-- Model: the byte the last host read returned (R74; log 10). -/
  readData : Byte
  /-- Model: the output of a function exercised by itself (R80; log 11). -/
  fnOut : Byte
  /-- Model: the host-program lines still to run (R82; log 10). -/
  host : List HostLine
  /-- Model: the bytes the `rd` lines have bound, oldest first (R82; log 10). -/
  got : List Byte
  /-- Model: the coming turns of the agents (R50, R76; log 9). -/
  turns : List Turn
  /-- Model: the parameter FaultModel (R9, R190; log 16). -/
  faultModel : Config.FaultModel
  /-- Model: fault events since the last accepted command (R190; log 16). -/
  injections : Nat
  /-- Model: what the agents have done in the run so far, newest first (R190; log 16). -/
  past : List Config.RunEvent
  deriving DecidableEq, Repr

/-- The state after reset, at the start of a run, of the core built with `flags` (R38, R230). The buffers are
unwritten; the bytes they hold until then are the model's choice (log 6, log 7). -/
def State.resetOf (flags : Config.BuildFlags) : State :=
  { state := Vector.replicate 16 0, iv := Vector.replicate 16 0, key := Vector.replicate 16 0,
    sched := Vector.replicate 176 0, seed := Vector.replicate 4 0, config := flags, prng := 0,
    dfaCopy := Vector.replicate 16 0, scrState := Vector.replicate 16 0, scrKey := Vector.replicate 16 0,
    seq := .idle, written := WrittenBits.clear, faults := [], refused := false, mismatch := 0, draws := 0,
    readData := 0, fnOut := 0, host := [], got := [], turns := [], faultModel := .none, injections := 0,
    past := [] }

/-- The state after reset of the default build (R7, R38, D25; log 8). -/
def State.reset : State := State.resetOf Config.defaultBuild

/-- A step's outcome. -/
abbrev Result := Host.Outcome State Fault Refusal

end Sys2Proof.Machine
end

