-- ==== Sys2Proof/Machine/Flags.lean ====
section
/-!
DEFINITION. The status and configuration bytes (10_state R28, R29) and which command bytes a build has (30_encoding
R71, R72). The core has no other flag (R21).
-/
namespace Sys2Proof.Machine

/-- STATUS.BUSY: 1 exactly when the sequencer is Running (R28, R31). -/
def State.busy (s : State) : Bool :=
  match s.seq with
  | .idle => false
  | .running _ _ => true

/-- The STATUS byte: BUSY in bit 0, bits 7:1 read 0 (R28). -/
def State.statusByte (s : State) : Byte := if s.busy then 0x01 else 0x00

/-- The CONFIG byte of a build: the four flags in bits 0 to 3, bits 7:4 read 0 (R29). -/
def configByteOf (c : Config.BuildFlags) : Byte :=
  0#4 ++ BitVec.ofBool c.antidfaEn ++ BitVec.ofBool c.dummyEn ++ BitVec.ofBool c.rdelayEn ++ BitVec.ofBool c.encEn

/-- The CONFIG byte (R29). -/
def State.configByte (s : State) : Byte := configByteOf s.config

/-- Whether a build has a command: ECB_ENC and CBC_ENC need ENC_EN (R71, R72). -/
def commandPresent (c : Config.BuildFlags) : Command → Bool
  | .ecbEnc | .cbcEnc => c.encEn
  | .expandKey | .ecbDec | .cbcDec | .seed => true

end Sys2Proof.Machine
end

