-- ==== Sys2Proof/Machine/Ops.lean ====
section
/-!
DEFINITION. The shared operations over the state: named updates, draws, model faults and refusals, the core's reads of
data buffers, and the sequencer's list. The core takes no exception and returns from none (60_exceptions R200, R208,
R209); recording a model fault (R205) and a refusal (R207) stand here in their place.
-/
namespace Sys2Proof.Machine

/-! ### Named updates -/

/-- Write all of STATE: its 16 `written` bits become true (R36). -/
def State.putState (s : State) (b : Block) : State :=
  { s with state := b, written := { s.written with state := Vector.replicate 16 true } }

/-- Write all of DFA_COPY. -/
def State.putDfaCopy (s : State) (b : Block) : State := { s with dfaCopy := b }

/-- Write all of SCR_STATE. -/
def State.putScrState (s : State) (b : Block) : State := { s with scrState := b }

/-- Write all of SCR_KEY. -/
def State.putScrKey (s : State) (b : Block) : State := { s with scrKey := b }

/-- Replace SCHED and its `written` bits. -/
def State.putSched (s : State) (r : Sched) (w : Vector Bool 176) : State :=
  { s with sched := r, written := { s.written with sched := w } }

/-- Replace the sequencer's state. -/
def State.putSeq (s : State) (q : Seq) : State := { s with seq := q }

/-- Replace the generator's state. -/
def State.putPrng (s : State) (p : Config.PrngState) : State := { s with prng := p }

/-- Count one more mismatch: a ghost (R182). -/
def State.countMismatch (s : State) : State := { s with mismatch := s.mismatch + 1 }

/-- The byte a host read returns (R74). -/
def State.putReadData (s : State) (v : Byte) : State := { s with readData := v }

/-- The output of a function exercised by itself (R80; log 11). -/
def State.putFnOut (s : State) (v : Byte) : State := { s with fnOut := v }

/-- Append to the run so far what an agent does (R190; log 16). -/
def State.note (s : State) (e : Config.RunEvent) : State := { s with past := e :: s.past }

/-- `n` more draws have been taken (log 2). -/
def State.spend (s : State) (n : Nat) : State := { s with draws := s.draws + n }

/-- `raise ModelFault`: append to the ghost list, and go on (R205). -/
def State.record (s : State) (fs : List Fault) : State := { s with faults := s.faults ++ fs }

/-- `refuse(NoSuchCommand(v))`: set the ghost flag, never cleared; the hardware ignores the write (R72, R207). -/
def State.refuse (s : State) : State := { s with refused := true }

/-! ### Draws (R12) -/

/-- `draw(Byte)`. -/
def State.drawByte (s : State) : Byte × State := (Config.freeByte s.draws, s.spend 1)

/-- `draw(Bytes16)`. -/
def State.drawBlock (s : State) : Block × State :=
  (Vector.ofFn fun j => Config.freeByte (s.draws + j.val), s.spend 16)

/-- `draw(lo..hi)`: any number from `lo` to `hi`. -/
def State.drawIn (s : State) (lo hi : Nat) : Nat × State :=
  (lo + Config.freeNat s.draws % (hi - lo + 1), s.spend 1)

/-- `prng <- draw(Prng.σ)`. -/
def State.redrawPrng (s : State) : State := (s.putPrng (Config.freePrng s.draws)).spend 1

/-! ### The core's reads of a data buffer -/

/-- The indexes whose `written` bit is false, in increasing order. -/
def unwrittenIn {n : Nat} (w : Vector Bool n) : List Nat :=
  ((List.finRange n).filter fun j => !w[j]).map Fin.val

/-- A micro-step reads the bytes `v` of buffer `e`, which start at index `off` and have the `written` bits `w`: one
model fault per unwritten byte, in increasing order, and a draw in its place (R205). -/
def State.coreRead {n : Nat} (s : State) (e : DataBuf) (off : Nat) (v : Vector Byte n) (w : Vector Bool n) :
    Vector Byte n × State :=
  let lost := unwrittenIn w
  (Vector.ofFn fun j => if w[j] then v[j] else Config.freeByte (s.draws + lost.idxOf j.val),
    (s.record (lost.map fun j => .unwrittenRead e (off + j))).spend lost.length)

/-- The core reads STATE. -/
def State.readState (s : State) : Block × State := s.coreRead .state 0 s.state s.written.state

/-- The core reads IV. -/
def State.readIv (s : State) : Block × State := s.coreRead .iv 0 s.iv s.written.iv

/-- The core reads KEY. -/
def State.readKeyBuf (s : State) : Block × State := s.coreRead .key 0 s.key s.written.key

/-- The core reads SEED. -/
def State.readSeed (s : State) : Vector Byte 4 × State := s.coreRead .seed 0 s.seed s.written.seed

/-- The `written` bits of round key n. -/
def roundKeyWritten (w : Vector Bool 176) (n : Fin 11) : Vector Bool 16 :=
  Vector.ofFn fun j => w[16 * n.val + j.val]

/-- The `written` bits of word i. -/
def wordWritten (w : Vector Bool 176) (i : Fin 44) : Vector Bool 4 :=
  Vector.ofFn fun j => w[4 * i.val + j.val]

/-- The core reads round key n of SCHED (R136). -/
def State.readRoundKey (s : State) (n : Fin 11) : Block × State :=
  s.coreRead .sched (16 * n.val) (roundKey s.sched n) (roundKeyWritten s.written.sched n)

/-- The core reads word i of SCHED (R124). -/
def State.readWord (s : State) (i : Fin 44) : KeyWord × State :=
  s.coreRead .sched (4 * i.val) (wordAt s.sched i) (wordWritten s.written.sched i)

/-! ### The sequencer's list (R31, R76) -/

/-- Put micro-steps at the head of the list: how a macro is replaced in place by its expansion. -/
def State.prepend (s : State) (l : List Instr) : State :=
  match s.seq with
  | .idle => s
  | .running c rest => s.putSeq (.running c (l ++ rest))

/-- A macro's result: its expansion `f` where a list is running; outside one there is nothing to replace. -/
def State.expanded (s : State) (f : State → State) : Result :=
  if s.busy then .next (f s) else .refused .macroOutsideList

/-- Apply `f` to the next state of an outcome. -/
def mapNext (f : State → State) : Result → Result
  | .next s => .next (f s)
  | .fault r => .fault r
  | .refused r => .refused r

end Sys2Proof.Machine
end

