-- ==== Sys2Proof/Machine/Operands.lean ====
section
/-!
DEFINITION. The operand forms: the target of a pass and the key of a key addition (30_encoding R77), and the addresses
of the register map (20_memory R52).
-/
namespace Sys2Proof.Machine

/-! ### Targets and keys -/

/-- Read the 16 bytes of a target. Only STATE is a data buffer and has `written` bits. -/
def State.readTarget (s : State) : Target → Block × State
  | .state => s.readState
  | .dfaCopy => (s.dfaCopy, s)
  | .scrState => (s.scrState, s)

/-- Write the 16 bytes of a target. -/
def State.writeTarget (s : State) (x : Target) (b : Block) : State :=
  match x with
  | .state => s.putState b
  | .dfaCopy => s.putDfaCopy b
  | .scrState => s.putScrState b

/-- Read the key of a key addition: round key n, or SCR_KEY (R136). -/
def State.readKey (s : State) : KeySel → Block × State
  | .round n => s.readRoundKey n
  | .scratch => (s.scrKey, s)

/-- A pass: read all of X, then write all of it (R130 to R135). -/
def State.transform (s : State) (x : Target) (f : Block → Block) : State :=
  let r := s.readTarget x
  r.2.writeTarget x (f r.1)

/-- A pass with a second operand, read after X (R136, R150; the order of recorded faults is R205's). -/
def State.combine (s : State) (x : Target) (other : State → Block × State) : State :=
  let r := s.readTarget x
  let k := other r.2
  k.2.writeTarget x (xorBlock r.1 k.1)

/-! ### The register map -/

/-- What an address stands for (R52). -/
inductive Loc where
  | data (d : DataByte)
  | cmd
  | status
  | config
  | reserved
  deriving DecidableEq, Repr

/-- The register map (R52). -/
def locate (a : Byte) : Loc :=
  let n := a.toNat
  if h : n < 0x10 then .data (.state ⟨n, h⟩)
  else if h : n < 0x20 then .data (.iv ⟨n - 0x10, by omega⟩)
  else if h : n < 0x30 then .data (.key ⟨n - 0x20, by omega⟩)
  else if h : n < 0x34 then .data (.seed ⟨n - 0x30, by omega⟩)
  else if n = 0x34 then .cmd
  else if n = 0x35 then .status
  else if n = 0x36 then .config
  else if n < 0x40 then .reserved
  else if h : n < 0xF0 then .data (.sched ⟨n - 0x40, by omega⟩)
  else .reserved

/-- The byte a data buffer holds. -/
def State.byteAt (s : State) : DataByte → Byte
  | .state j => s.state[j]
  | .iv j => s.iv[j]
  | .key j => s.key[j]
  | .seed j => s.seed[j]
  | .sched j => s.sched[j]

/-- The byte's `written` bit. -/
def State.isWritten (s : State) : DataByte → Bool
  | .state j => s.written.state[j]
  | .iv j => s.written.iv[j]
  | .key j => s.written.key[j]
  | .seed j => s.written.seed[j]
  | .sched j => s.written.sched[j]

/-- Replace a byte, its `written` bit as it was: what a fault event does (R190). -/
def State.setByte (s : State) (d : DataByte) (v : Byte) : State :=
  match d with
  | .state j => { s with state := s.state.set j v }
  | .iv j => { s with iv := s.iv.set j v }
  | .key j => { s with key := s.key.set j v }
  | .seed j => { s with seed := s.seed.set j v }
  | .sched j => { s with sched := s.sched.set j v }

/-- Set a byte's `written` bit. -/
def State.markWritten (s : State) (d : DataByte) : State :=
  match d with
  | .state j => { s with written := { s.written with state := s.written.state.set j true } }
  | .iv j => { s with written := { s.written with iv := s.written.iv.set j true } }
  | .key j => { s with written := { s.written with key := s.written.key.set j true } }
  | .seed j => { s with written := { s.written with seed := s.written.seed.set j true } }
  | .sched j => { s with written := { s.written with sched := s.written.sched.set j true } }

/-- Store a host's byte (R56). -/
def State.storeByte (s : State) (d : DataByte) (v : Byte) : State := (s.setByte d v).markWritten d

/-- The byte a host read of address `a` would find stored, where it is exact: a written byte of a data buffer while no
command runs. -/
def State.stored (s : State) (a : Byte) : Option Byte :=
  match locate a with
  | .data d => if s.isWritten d then some (s.byteAt d) else none
  | .cmd | .status | .config | .reserved => none

end Sys2Proof.Machine
end

