-- ==== Sys2Proof/Machine/Steps.lean ====
section
/-!
DEFINITION. The micro-step list of each command and the expansion of each macro, as lists (41_key_schedule R122,
43_driver R151 to R156, 42_round_transform R140 to R143, 44_countermeasures R173, R175, R178, R181, R186).
-/
namespace Sys2Proof.Machine

/-- The macro words: the entries that are replaced by an expansion when they reach the head of the list (R76). -/
def isMacro : Instr → Bool
  | .round _ _ | .lastRound _ _ | .firstInvRound _ _ | .invRound _ _ => true
  | .delay _ | .decoyGroup _ _ _ | .dual => true
  | .expandKey | .ecbEnc | .ecbDec | .cbcEnc | .cbcDec | .seed | .hostWr _ _ | .hostRd _ => false
  | .keyCopy | .keyWord _ | .subBytes _ | .invSubBytes _ | .shiftRows _ | .invShiftRows _ => false
  | .mixColumns _ | .invMixColumns _ | .addRoundKey _ _ | .xorIv _ => false
  | .idle | .decoyFill | .dfaSnapshot | .dfaCompare | .prngSeed => false
  | .sboxLookup _ | .invSboxLookup _ | .gfMul _ _ _ => false

/-- The macro word of a round kind. -/
def roundWord (kind : RoundKind) (x : Target) (k : KeySel) : Instr :=
  match kind with
  | .round => .round x k
  | .lastRound => .lastRound x k
  | .firstInvRound => .firstInvRound x k
  | .invRound => .invRound x k

/-- The passes of a round kind (R140 to R143). -/
def roundPasses (kind : RoundKind) (x : Target) (k : KeySel) : List Instr :=
  match kind with
  | .round => [.subBytes x, .shiftRows x, .mixColumns x, .addRoundKey x k]
  | .lastRound => [.subBytes x, .shiftRows x, .addRoundKey x k]
  | .firstInvRound => [.addRoundKey x k, .invShiftRows x, .invSubBytes x]
  | .invRound => [.addRoundKey x k, .invMixColumns x, .invShiftRows x, .invSubBytes x]

/-- Pad(p): a short delay before and after a pass, with RDELAY_EN (R173, R186). -/
def padPass (c : Config.BuildFlags) (p : Instr) : List Instr :=
  if c.rdelayEn then [.delay .short, p, .delay .short] else [p]

/-- The expansion of a round kind's macro, its passes padded (R140 to R143, R173). -/
def roundExpansion (c : Config.BuildFlags) (kind : RoundKind) (x : Target) (k : KeySel) : List Instr :=
  (roundPasses kind x k).flatMap (padPass c)

/-- Grp(K, X, n) (R178, R186). -/
def groupOf (c : Config.BuildFlags) (kind : RoundKind) (x : Target) (n : Fin 11) : List Instr :=
  if c.dummyEn then [.decoyGroup kind x n] else [roundWord kind x (.round n)]

/-- Rnd(K, X, n): a long delay before and after the round or its group, with RDELAY_EN (R173, R186). -/
def hardRound (c : Config.BuildFlags) (kind : RoundKind) (x : Target) (n : Fin 11) : List Instr :=
  if c.rdelayEn then [.delay .long] ++ groupOf c kind x n ++ [.delay .long] else groupOf c kind x n

/-- The hardened EncBody(X) (R151, R186). -/
def encBody (c : Config.BuildFlags) (x : Target) : List Instr :=
  padPass c (.addRoundKey x (.round 0)) ++ innerRounds.flatMap (hardRound c .round x) ++ hardRound c .lastRound x 10

/-- The hardened DecBody(X) (R152, R186). -/
def decBody (c : Config.BuildFlags) (x : Target) : List Instr :=
  hardRound c .firstInvRound x 10 ++ innerRounds.reverse.flatMap (hardRound c .invRound x) ++
    padPass c (.addRoundKey x (.round 0))

/-- The hardened body B'(X) of a cipher command (R151 to R154, R186); the other two commands have none. -/
def cipherBody (c : Config.BuildFlags) (cmd : Command) (x : Target) : List Instr :=
  match cmd with
  | .ecbEnc => encBody c x
  | .ecbDec => decBody c x
  | .cbcEnc => padPass c (.xorIv x) ++ encBody c x
  | .cbcDec => decBody c x ++ padPass c (.xorIv x)
  | .expandKey | .seed => []

/-- The expansion of DUAL with the body of `cmd` (R181). -/
def dualExpansion (c : Config.BuildFlags) (cmd : Command) : List Instr :=
  [.dfaSnapshot] ++ cipherBody c cmd .state ++ [.delay .dualComputation] ++ cipherBody c cmd .dfaCopy ++ [.dfaCompare]

/-- Mid: the dual computation with ANTIDFA_EN, else one pass over STATE (R186). -/
def midSteps (c : Config.BuildFlags) (cmd : Command) : List Instr :=
  if c.antidfaEn then [.dual] else cipherBody c cmd .state

/-- The list of a cipher command, per-call delays outermost (R186). -/
def cipherSteps (c : Config.BuildFlags) (cmd : Command) : List Instr :=
  if c.rdelayEn then [.delay .long] ++ midSteps c cmd ++ [.delay .long] else midSteps c cmd

/-- `steps(cmd)`: the list a command starts with in the build `c` (R122, R156, R186). -/
def commandSteps (c : Config.BuildFlags) : Command → List Instr
  | .expandKey => .keyCopy :: wordIndexes.map .keyWord
  | .ecbEnc => cipherSteps c .ecbEnc
  | .ecbDec => cipherSteps c .ecbDec
  | .cbcEnc => cipherSteps c .cbcEnc
  | .cbcDec => cipherSteps c .cbcDec
  | .seed => [.prngSeed]

/-- One invocation of a call group: the real one, or a decoy on freshly filled scratch buffers (R175). -/
def invocation (kind : RoundKind) (x : Target) (n : Fin 11) (real : Bool) : List Instr :=
  if real then [roundWord kind x (.round n)] else [.decoyFill, roundWord kind .scrState .scratch]

/-- A call group of `cnt` invocations, the real one at position `pos` (R175). -/
def groupExpansion (kind : RoundKind) (x : Target) (n : Fin 11) (cnt pos : Nat) : List Instr :=
  (List.range cnt).flatMap fun j => invocation kind x n (j == pos)

end Sys2Proof.Machine
end

