-- ==== Sys2Proof/Machine/Commands.lean ====
section
/-!
DEFINITION. The six commands (30_encoding R71, R72) and the two host transactions (20_memory R55 to R57). A command is
a write to CMD: its meaning is to be accepted, and the sequencer then performs its list (Agents.lean).
-/
namespace Sys2Proof.Machine

/-- The address of CMD (R52). -/
def cmdAddress : Byte := 0x34

/-- Accept a command: `seq <- Running(v, steps(v))`, so BUSY becomes 1 (R72). The count of fault events starts anew
(log 16). -/
def State.accept (s : State) (c : Command) : State :=
  { s with seq := .running c (commandSteps s.config c), injections := 0 }

/-- A write of `v` to CMD while idle: accepted if the build has the command, else ignored and refused (R72, R207). -/
def State.writeCmd (s : State) (v : Byte) : State :=
  match decodeCommand v with
  | some c => if commandPresent s.config c then s.accept c else s.refuse
  | none => s.refuse

/-- A host write (R56, R57). The busy check comes first (R211). -/
def State.hostWrite (s : State) (a d : Byte) : State :=
  if s.busy then s.record [.hostWriteWhileBusy a d]
  else match locate a with
    | .data b => s.storeByte b d
    | .cmd => s.writeCmd d
    | .status | .config | .reserved => s

/-- The byte a host read returns (R55, R57): a data buffer's byte is exact only when it is written and no command
runs, else a draw. -/
def State.hostRead (s : State) (a : Byte) : Byte × State :=
  match locate a with
  | .data b => if s.busy || !s.isWritten b then s.drawByte else (s.byteAt b, s)
  | .cmd => (0x00, s)
  | .status => (s.statusByte, s)
  | .config => (s.configByte, s)
  | .reserved => (0x00, s)

/-- EXPAND_KEY (R122). -/
def execExpandKey (s : State) : Result := .next (s.hostWrite cmdAddress Command.expandKey.byte)

/-- ECB_ENC (R151). -/
def execEcbEnc (s : State) : Result := .next (s.hostWrite cmdAddress Command.ecbEnc.byte)

/-- ECB_DEC (R152). -/
def execEcbDec (s : State) : Result := .next (s.hostWrite cmdAddress Command.ecbDec.byte)

/-- CBC_ENC (R153). -/
def execCbcEnc (s : State) : Result := .next (s.hostWrite cmdAddress Command.cbcEnc.byte)

/-- CBC_DEC (R154). -/
def execCbcDec (s : State) : Result := .next (s.hostWrite cmdAddress Command.cbcDec.byte)

/-- SEED (R156). -/
def execSeed (s : State) : Result := .next (s.hostWrite cmdAddress Command.seed.byte)

/-- HOST_WR (R56, R57). -/
def execHostWr (a d : Byte) (s : State) : Result := .next (s.hostWrite a d)

/-- HOST_RD (R55, R57): the byte is returned in `readData` (log 10). -/
def execHostRd (a : Byte) (s : State) : Result :=
  let r := s.hostRead a
  .next (r.2.putReadData r.1)

end Sys2Proof.Machine
end

