-- ==== Sys2Proof/Machine/Countermeasures.lean ====
section
/-!
DEFINITION. The countermeasures' micro-steps and macros (44_countermeasures R171, R172, R175, R176, R181, R182). Every
pseudorandom value is a draw, and `prng` is then replaced by a draw (R12, D12).
-/
namespace Sys2Proof.Machine

/-- DELAY's effect: `t` ticks, `t` drawn between the class's bounds, in place of the macro (R172). -/
def State.expandDelay (s : State) (c : DelayClass) : State :=
  let t := s.drawIn (Config.delayMin c) (Config.delayMax c)
  (t.2.redrawPrng).prepend (List.replicate t.1 .idle)

/-- DECOY_GROUP's effect: `cnt` in 1..3, `pos` in 0..cnt-1, the call group in place of the macro (R175). -/
def State.expandGroup (s : State) (kind : RoundKind) (x : Target) (n : Fin 11) : State :=
  let cnt := s.drawIn 1 3
  let pos := cnt.2.drawIn 0 (cnt.1 - 1)
  (pos.2.redrawPrng).prepend (groupExpansion kind x n cnt.1 pos.1)

/-- IDLE: nothing changes (R171). -/
def execIdle (s : State) : Result := .next s

/-- DELAY c (R172). -/
def execDelay (c : DelayClass) (s : State) : Result := s.expanded fun t => t.expandDelay c

/-- DECOY_GROUP K X, n (R175). -/
def execDecoyGroup (kind : RoundKind) (x : Target) (n : Fin 11) (s : State) : Result :=
  s.expanded fun t => t.expandGroup kind x n

/-- DECOY_FILL: SCR_STATE, SCR_KEY and `prng` become draws (R176). -/
def execDecoyFill (s : State) : Result :=
  let b := s.drawBlock
  let k := (b.2.putScrState b.1).drawBlock
  .next (k.2.putScrKey k.1).redrawPrng

/-- DFA_SNAPSHOT: DFA_COPY takes STATE (R181). -/
def execDfaSnapshot (s : State) : Result :=
  let r := s.readState
  .next (r.2.putDfaCopy r.1)

/-- DFA_COMPARE: on a mismatch STATE becomes sixteen zero bytes, in the same step (R182). -/
def execDfaCompare (s : State) : Result :=
  let r := s.readState
  if r.1 = r.2.dfaCopy then .next r.2 else .next (r.2.putState zeroBlock).countMismatch

/-- DUAL: the dual computation of the running command's body (R181; log 18). -/
def execDual (s : State) : Result :=
  match s.seq with
  | .idle => .refused .macroOutsideList
  | .running c _ =>
    if c.isCipher then .next (s.prepend (dualExpansion s.config c)) else .refused .dualWithoutBody

end Sys2Proof.Machine
end

