-- ==== Sys2Proof/Machine/Driver.lean ====
section
/-!
DEFINITION. The driver's own micro-steps (43_driver R150, R156).
-/
namespace Sys2Proof.Machine

/-- XOR_IV X (R150). -/
def execXorIv (x : Target) (s : State) : Result := .next (s.combine x State.readIv)

/-- PRNG_SEED: `prng <- Prng.seed(SEED[0..3])` (R156). -/
def execPrngSeed (s : State) : Result :=
  let r := s.readSeed
  .next (r.2.putPrng (Config.prngSeed r.1))

end Sys2Proof.Machine
end

