-- ==== Sys2Proof/Machine/Functions.lean ====
section
/-!
DEFINITION. The combinational functions exercised by themselves (30_encoding R80, 92 D33). They touch no storage
element; their result stands on `fnOut` (log 11).
-/
namespace Sys2Proof.Machine

/-- SBOX_LOOKUP(b) (R104). -/
def execSboxLookup (b : Byte) (s : State) : Result := .next (s.putFnOut (sbox b))

/-- INV_SBOX_LOOKUP(b) (R105). -/
def execInvSboxLookup (b : Byte) (s : State) : Result := .next (s.putFnOut (invSbox b))

/-- GF_MUL(a, b, poly) (R100). -/
def execGfMul (a b poly : Byte) (s : State) : Result := .next (s.putFnOut (gfMul a b poly))

end Sys2Proof.Machine
end

