-- ==== Sys2Proof/Machine/KeySchedule.lean ====
section
/-!
DEFINITION. The micro-steps of EXPAND_KEY (41_key_schedule R123, R124).
-/
namespace Sys2Proof.Machine

/-- KEY_COPY: `SCHED[0..15] <- KEY[0..15]` (R123). -/
def State.keyCopy (s : State) : State :=
  let r := s.readKeyBuf
  r.2.putSched (setRoundKey0 r.2.sched r.1) (Vector.ofFn fun j => if j.val < 16 then true else r.2.written.sched[j])

/-- KEY_WORD i: word i from words i-4 and i-1 (R124). The lower word is read first, the order of R205. -/
def State.keyWord (s : State) (i : Fin 44) : State :=
  let back := s.readWord (wordBefore i 4)
  let prev := back.2.readWord (wordBefore i 1)
  prev.2.putSched (setWord prev.2.sched i (nextWord i prev.1 back.1))
    (Vector.ofFn fun j => if j.val / 4 = i.val then true else prev.2.written.sched[j])

/-- KEY_COPY (R123). -/
def execKeyCopy (s : State) : Result := .next s.keyCopy

/-- KEY_WORD i (R124); an index below 4 is no word of R77. -/
def execKeyWord (i : Fin 44) (s : State) : Result :=
  if 4 ≤ i.val then .next (s.keyWord i) else .refused .wordIndexTooLow

end Sys2Proof.Machine
end

