-- ==== Sys2Proof/Machine/RoundTransform.lean ====
section
/-!
DEFINITION. The passes (42_round_transform R130 to R136), each one atomic micro-step on a target, and the four round
kinds (R140 to R143), each a macro.
-/
namespace Sys2Proof.Machine

/-- SUB_BYTES X (R130). -/
def execSubBytes (x : Target) (s : State) : Result := .next (s.transform x subBytes)

/-- INV_SUB_BYTES X (R131). -/
def execInvSubBytes (x : Target) (s : State) : Result := .next (s.transform x invSubBytes)

/-- SHIFT_ROWS X (R132). -/
def execShiftRows (x : Target) (s : State) : Result := .next (s.transform x shiftRows)

/-- INV_SHIFT_ROWS X (R133). -/
def execInvShiftRows (x : Target) (s : State) : Result := .next (s.transform x invShiftRows)

/-- MIX_COLUMNS X (R134). -/
def execMixColumns (x : Target) (s : State) : Result := .next (s.transform x mixColumns)

/-- INV_MIX_COLUMNS X (R135). -/
def execInvMixColumns (x : Target) (s : State) : Result := .next (s.transform x invMixColumns)

/-- ADD_ROUND_KEY X, k (R136). -/
def execAddRoundKey (x : Target) (k : KeySel) (s : State) : Result := .next (s.combine x fun t => t.readKey k)

/-- A round kind's macro is replaced by its passes (R76, R140 to R143). -/
def State.expandRound (s : State) (kind : RoundKind) (x : Target) (k : KeySel) : State :=
  s.prepend (roundExpansion s.config kind x k)

/-- ROUND X, k (R140). -/
def execRound (x : Target) (k : KeySel) (s : State) : Result := s.expanded fun t => t.expandRound .round x k

/-- LAST_ROUND X, k (R141). -/
def execLastRound (x : Target) (k : KeySel) (s : State) : Result := s.expanded fun t => t.expandRound .lastRound x k

/-- FIRST_INV_ROUND X, k (R142). -/
def execFirstInvRound (x : Target) (k : KeySel) (s : State) : Result :=
  s.expanded fun t => t.expandRound .firstInvRound x k

/-- INV_ROUND X, k (R143). -/
def execInvRound (x : Target) (k : KeySel) (s : State) : Result := s.expanded fun t => t.expandRound .invRound x k

end Sys2Proof.Machine
end

