-- ==== Sys2Proof/Machine/Dispatch.lean ====
section
/-!
DEFINITION. The meaning of every instruction, one arm each.
-/
namespace Sys2Proof.Machine

/-- Execute one instruction. -/
def exec (i : Instr) (s : State) : Host.Outcome State Fault Refusal :=
  match i with
  | .expandKey => Sys2Proof.Machine.execExpandKey s
  | .ecbEnc => Sys2Proof.Machine.execEcbEnc s
  | .ecbDec => Sys2Proof.Machine.execEcbDec s
  | .cbcEnc => Sys2Proof.Machine.execCbcEnc s
  | .cbcDec => Sys2Proof.Machine.execCbcDec s
  | .seed => Sys2Proof.Machine.execSeed s
  | .hostWr a d => Sys2Proof.Machine.execHostWr a d s
  | .hostRd a => Sys2Proof.Machine.execHostRd a s
  | .keyCopy => Sys2Proof.Machine.execKeyCopy s
  | .keyWord w => Sys2Proof.Machine.execKeyWord w s
  | .subBytes x => Sys2Proof.Machine.execSubBytes x s
  | .invSubBytes x => Sys2Proof.Machine.execInvSubBytes x s
  | .shiftRows x => Sys2Proof.Machine.execShiftRows x s
  | .invShiftRows x => Sys2Proof.Machine.execInvShiftRows x s
  | .mixColumns x => Sys2Proof.Machine.execMixColumns x s
  | .invMixColumns x => Sys2Proof.Machine.execInvMixColumns x s
  | .addRoundKey x k => Sys2Proof.Machine.execAddRoundKey x k s
  | .xorIv x => Sys2Proof.Machine.execXorIv x s
  | .round x k => Sys2Proof.Machine.execRound x k s
  | .lastRound x k => Sys2Proof.Machine.execLastRound x k s
  | .firstInvRound x k => Sys2Proof.Machine.execFirstInvRound x k s
  | .invRound x k => Sys2Proof.Machine.execInvRound x k s
  | .idle => Sys2Proof.Machine.execIdle s
  | .delay c => Sys2Proof.Machine.execDelay c s
  | .decoyGroup kind x n => Sys2Proof.Machine.execDecoyGroup kind x n s
  | .decoyFill => Sys2Proof.Machine.execDecoyFill s
  | .dfaSnapshot => Sys2Proof.Machine.execDfaSnapshot s
  | .dfaCompare => Sys2Proof.Machine.execDfaCompare s
  | .dual => Sys2Proof.Machine.execDual s
  | .prngSeed => Sys2Proof.Machine.execPrngSeed s
  | .sboxLookup b => Sys2Proof.Machine.execSboxLookup b s
  | .invSboxLookup b => Sys2Proof.Machine.execInvSboxLookup b s
  | .gfMul a b poly => Sys2Proof.Machine.execGfMul a b poly s

end Sys2Proof.Machine
end

