-- ==== Sys2Proof/Machine/Agents.lean ====
section
/-!
DEFINITION. The turns of the agents (20_memory R50): the host runs the next line of its program (30_encoding R82, R83),
the sequencer performs the head of its list (R76), the environment resets the core (70_reset R230) or replaces a byte
(44_countermeasures R190). After every turn `settle` replaces the macros that have reached the head of the list, and
ends the command when its list is empty (R76). Placing an instruction where the next step takes it stands here too.
-/
namespace Sys2Proof.Machine

/-! ### The sequencer -/

/-- Sixteen draws from number `n` on. -/
def freeBlock (n : Nat) : Block := Vector.ofFn fun j => Config.freeByte (n + j.val)

/-- The end of a command: `seq <- Idle` and BUSY becomes 0 (R76). After a cipher command the content of DFA_COPY,
SCR_STATE and SCR_KEY is unspecified: draws (R33, R34, R37; log 27). -/
def State.endCommand (s : State) (c : Command) : State :=
  if c.isCipher then
    { s with
      seq := .idle, dfaCopy := freeBlock s.draws, scrState := freeBlock (s.draws + 16),
      scrKey := freeBlock (s.draws + 32), draws := s.draws + 48 }
  else s.putSeq .idle

/-- Replace macros at the head of the list by their expansions, at most `n` of them; an empty list ends the command
(R76; log 13). -/
def settleFor : Nat → State → State
  | 0, s => s
  | n + 1, s =>
    match s.seq with
    | .idle => s
    | .running c [] => s.endCommand c
    | .running c (u :: rest) =>
      if isMacro u then
        match exec u (s.putSeq (.running c rest)) with
        | .next t => settleFor n t
        | .fault _ => s
        | .refused _ => s
      else s

/-- How many replacements can be due: each but the last three takes a DELAY off the list (log 13). -/
def settleFuel (s : State) : Nat :=
  match s.seq with
  | .idle => 0
  | .running _ rest => rest.length + 4

/-- Replace every macro that has reached the head (R76). -/
def settle (s : State) : State := settleFor (settleFuel s) s

/-- The sequencer's turn: perform the head of the list, which leaves the list as the step begins (R76). At Idle it has
nothing to do. -/
def coreTurn (s : State) : Result :=
  match s.seq with
  | .idle => .next s
  | .running _ [] => .next s
  | .running c (u :: rest) => exec u ((s.putSeq (.running c rest)).note (.core u))

/-! ### The host -/

/-- An `rd` line binds the byte the read returned (R82). -/
def State.bindRead (s : State) (i : Instr) : State :=
  match i with
  | .hostRd _ => { s with got := s.got ++ [s.readData] }
  | _ => s

/-- The address of STATUS (R52). -/
def statusAddress : Byte := 0x35

/-- After a polling read: `wait` ends when bit 0 of the byte is 0, and is tried again otherwise (R83). -/
def State.afterPoll (s : State) (rest : List HostLine) : State :=
  if s.readData.getLsbD 0 then s else { s with host := rest }

/-- The host's turn: run the next line of its program (R82, R83). A host with no line left stays silent. -/
def hostTurn (s : State) : Result :=
  match s.host with
  | [] => .next s
  | .txn t :: rest =>
    mapNext (fun r => r.bindRead (decodeHost t)) (exec (decodeHost t) ({ s with host := rest }.note (.host t)))
  | .wait :: rest => mapNext (fun r => r.afterPoll rest) (exec (.hostRd statusAddress) (s.note .poll))

/-! ### The environment -/

/-- A reset (R230): the sequencer is Idle, every `written` bit false, every buffer and `prng` a draw (R38, R232);
CONFIG, the ghosts `faults`, `refused` and `mismatch` (R231), the run so far and everything outside the core stay. -/
def State.envReset (s : State) : State :=
  { s with
    seq := .idle, written := WrittenBits.clear, injections := 0
    state := freeBlock s.draws, iv := freeBlock (s.draws + 16), key := freeBlock (s.draws + 32)
    sched := Vector.ofFn fun j => Config.freeByte (s.draws + 48 + j.val)
    seed := Vector.ofFn fun j => Config.freeByte (s.draws + 224 + j.val)
    dfaCopy := freeBlock (s.draws + 228), scrState := freeBlock (s.draws + 244), scrKey := freeBlock (s.draws + 260)
    prng := Config.freePrng (s.draws + 276), draws := s.draws + 277 }

/-- Whether the fault model admits the event that replaces byte `b` by `v` now (R190). -/
def State.admitsInjection (s : State) (b : HwByte) (v : Byte) : Bool :=
  match s.faultModel with
  | .none => false
  | .onePerCommand => s.busy && s.injections == 0
  | .any => true
  | .given => Config.givenFaultModel s.config s.past b v

/-- The event Corrupt(E, j, v): the byte is replaced, its `written` bit as it was (R190). -/
def State.corrupt (s : State) (b : HwByte) (v : Byte) : State :=
  match b with
  | .data d => { s.setByte d v with injections := s.injections + 1 }
  | .dfaCopy j => { s with dfaCopy := s.dfaCopy.set j v, injections := s.injections + 1 }
  | .scrState j => { s with scrState := s.scrState.set j v, injections := s.injections + 1 }
  | .scrKey j => { s with scrKey := s.scrKey.set j v, injections := s.injections + 1 }

/-- The environment's turn with a fault event (R190). -/
def corruptTurn (b : HwByte) (v : Byte) (s : State) : Result :=
  if s.admitsInjection b v then .next ((s.corrupt b v).note (.corrupt b v)) else .refused .injectionNotAdmitted

/-- The functions' own turn (log 11). -/
def funcTurn (f : BitVec 32) (s : State) : Result :=
  match decodeFunction f with
  | .ok i => exec i (s.note (.func f))
  | .error _ => .refused .notAFunction

/-! ### Whose turn it is -/

/-- The agent that acts next: the head of `turns`; with none given, the sequencer while a command runs, else the host
(log 9). -/
def State.nextTurn (s : State) : Turn :=
  match s.turns with
  | t :: _ => t
  | [] => if s.busy then .core else .host

/-- The turn is taken off the list. -/
def State.dropTurn (s : State) : State := { s with turns := s.turns.tail }

/-- One agent's turn. -/
def takeTurn (t : Turn) (s : State) : Result :=
  match t with
  | .host => hostTurn s
  | .core => coreTurn s
  | .reset => .next (s.envReset.note .reset)
  | .corrupt b v => corruptTurn b v s
  | .func f => funcTurn f s

/-! ### Placing an instruction -/

/-- Make the host's next line the transaction `t`, and the next turn the host's. -/
def State.placeTxn (s : State) (t : BitVec 17) : State :=
  { s with host := .txn t :: s.host, turns := .host :: s.turns }

/-- The command under which a micro-step is placed where none runs: one whose list holds it (log 21). -/
def hostingCommand : Instr → Command
  | .keyCopy | .keyWord _ => .expandKey
  | .prngSeed => .seed
  | _ => .ecbDec

/-- Put a micro-step at the head of the sequencer's list, and make the next turn the sequencer's. -/
def State.placeStep (s : State) (i : Instr) : State :=
  match s.seq with
  | .idle => { s with seq := .running (hostingCommand i) [i], turns := .core :: s.turns }
  | .running c rest => { s with seq := .running c (i :: rest), turns := .core :: s.turns }

/-- Place the instruction a word stands for where the next step takes it: a command as a write to CMD, a transaction
as the host's next line, a micro-step at the head of the sequencer's list, a function on its own turn (log 21). -/
def State.placeWord (s : State) (i : Instr) : State :=
  match encode i with
  | .cmd v => s.placeTxn (1#1 ++ cmdAddress ++ v)
  | .host t => s.placeTxn t
  | .ustep _ => s.placeStep i
  | .ustep24 _ => s.placeStep i
  | .func f => { s with turns := .func f :: s.turns }

end Sys2Proof.Machine
end

