-- ==== Sys2Proof/Machine/Step.lean ====
section
/-!
DEFINITION. One step of the machine: one agent's turn (60_exceptions R211), then the macros that have reached the head
of the sequencer's list are replaced (30_encoding R76). And the word the next step takes.
-/
namespace Sys2Proof.Machine

/-- One step. -/
def step (s : State) : Host.Outcome State Fault Refusal :=
  mapNext settle (takeTurn s.nextTurn s.dropTurn)

/-- `s` with the instruction of the word `w` of `nbits` bits placed where the next step takes it (log 21). A word that
is no instruction leaves `s` as it is. -/
def State.withFetchWord (s : State) (nbits w : Nat) : State :=
  match Sys2Proof.decodeTableWord nbits w with
  | some i => s.placeWord i
  | none => s

end Sys2Proof.Machine
end

