-- ==== Sys2Proof/Machine/HostProgram.lean ====
section
/-!
DEFINITION. Host programs (30_encoding R82, R83): the base lines, and the pseudo-instructions as the lines they expand
to. And the trace syntax of micro-steps (R84).
-/
namespace Sys2Proof.Machine

/-- `wr A, V`: the transaction `1 ++ A ++ V` (R82). -/
def wr (a v : Byte) : HostLine := .txn (1#1 ++ a ++ v)

/-- `rd A -> name`: the transaction `0 ++ A ++ 0x00` (R82). -/
def rd (a : Byte) : HostLine := .txn (0#1 ++ a ++ 0#8)

/-- The base address of a data buffer (R83). -/
def bufBase : DataBuf → Byte
  | .state => 0x00
  | .iv => 0x10
  | .key => 0x20
  | .seed => 0x30
  | .sched => 0x40

/-- The length of a data buffer in bytes (R83). -/
def bufLen : DataBuf → Nat
  | .state | .iv | .key => 16
  | .seed => 4
  | .sched => 176

/-- `cmd C`: `wr 0x34, <C's byte>` (R83). -/
def cmdLine (c : Command) : List HostLine := [wr 0x34 c.byte]

/-- `do C`: `cmd C` then `wait` (R83). -/
def doLine (c : Command) : List HostLine := cmdLine c ++ [.wait]

/-- `wrblk E, h`: the bytes of `h` to `base(E)` and up, byte 0 first; bytes past len(E) are none of E's (R83). -/
def wrblk (e : DataBuf) (h : List Byte) : List HostLine :=
  (h.take (bufLen e)).mapIdx fun j v => wr (bufBase e + BitVec.ofNat 8 j) v

/-- `rdblk E -> name` (R83). -/
def rdblk (e : DataBuf) : List HostLine :=
  (List.range (bufLen e)).map fun j => rd (bufBase e + BitVec.ofNat 8 j)

/-- `clear E`: `wrblk E` with zero bytes (R83). -/
def clearLine (e : DataBuf) : List HostLine := wrblk e (List.replicate (bufLen e) 0)

/-! ### Trace syntax (R84) -/

/-- A target's name in a trace (R84). -/
def targetName : Target → String
  | .state => "STATE"
  | .dfaCopy => "DFA_COPY"
  | .scrState => "SCR_STATE"

/-- A key operand in a trace: a round-key index or SCR_KEY (R84). -/
def keyName : KeySel → String
  | .round n => toString n.val
  | .scratch => "SCR_KEY"

/-- A delay class's number in a trace (R172, R84). -/
def className : DelayClass → String
  | .short => "0"
  | .long => "1"
  | .dualComputation => "2"

/-- A round kind's mnemonic (R77). -/
def kindName : RoundKind → String
  | .round => "ROUND"
  | .lastRound => "LAST_ROUND"
  | .firstInvRound => "FIRST_INV_ROUND"
  | .invRound => "INV_ROUND"

/-- A micro-step as `MNEMONIC target[, operand]` (R84). What is no micro-step has no trace form. -/
def traceLine : Instr → Option String
  | .keyCopy => some "KEY_COPY"
  | .keyWord i => some ("KEY_WORD " ++ toString i.val)
  | .subBytes x => some ("SUB_BYTES " ++ targetName x)
  | .invSubBytes x => some ("INV_SUB_BYTES " ++ targetName x)
  | .shiftRows x => some ("SHIFT_ROWS " ++ targetName x)
  | .invShiftRows x => some ("INV_SHIFT_ROWS " ++ targetName x)
  | .mixColumns x => some ("MIX_COLUMNS " ++ targetName x)
  | .invMixColumns x => some ("INV_MIX_COLUMNS " ++ targetName x)
  | .addRoundKey x k => some ("ADD_ROUND_KEY " ++ targetName x ++ ", " ++ keyName k)
  | .xorIv x => some ("XOR_IV " ++ targetName x)
  | .round x k => some ("ROUND " ++ targetName x ++ ", " ++ keyName k)
  | .lastRound x k => some ("LAST_ROUND " ++ targetName x ++ ", " ++ keyName k)
  | .firstInvRound x k => some ("FIRST_INV_ROUND " ++ targetName x ++ ", " ++ keyName k)
  | .invRound x k => some ("INV_ROUND " ++ targetName x ++ ", " ++ keyName k)
  | .idle => some "IDLE"
  | .delay c => some ("DELAY " ++ className c)
  | .decoyGroup kind x n => some ("DECOY_GROUP " ++ kindName kind ++ " " ++ targetName x ++ ", " ++ toString n.val)
  | .decoyFill => some "DECOY_FILL"
  | .dfaSnapshot => some "DFA_SNAPSHOT"
  | .dfaCompare => some "DFA_COMPARE"
  | .dual => some "DUAL"
  | .prngSeed => some "PRNG_SEED"
  | .expandKey | .ecbEnc | .ecbDec | .cbcEnc | .cbcDec | .seed | .hostWr _ _ | .hostRd _ => none
  | .sboxLookup _ | .invSboxLookup _ | .gfMul _ _ _ => none

end Sys2Proof.Machine
end

