-- ==== Sys2Proof/Safety.lean ====
section
/-!
DEFINITION. The terms claims are stated in: acceptable runs (60_exceptions R205, R207), what has been written, which
micro-steps a command's list can hold (30_encoding R79) and the sequencer's invariant, and the net effect of a cipher
command (43_driver R151 to R154).
-/
namespace Sys2Proof.Machine

/-- A state a claim about a run accepts at its end: no model fault recorded, nothing refused (R205, R207). -/
def State.acceptable (s : State) : Prop := s.faults = [] ∧ s.refused = false

/-- Every byte of STATE has been written since reset (R36). -/
abbrev State.stateWritten (s : State) : Prop := s.written.state = Vector.replicate 16 true

/-- Every byte of IV has been written since reset (R36). -/
abbrev State.ivWritten (s : State) : Prop := s.written.iv = Vector.replicate 16 true

/-- Every byte of KEY has been written since reset (R36). -/
abbrev State.keyWritten (s : State) : Prop := s.written.key = Vector.replicate 16 true

/-- Every byte of SCHED has been written since reset (R36). -/
abbrev State.schedWritten (s : State) : Prop := s.written.sched = Vector.replicate 176 true

/-- Every byte of SEED has been written since reset (R36). -/
abbrev State.seedWritten (s : State) : Prop := s.written.seed = Vector.replicate 4 true

/-- The 16 bytes a target holds. -/
def State.bytesOf (s : State) : Target → Block
  | .state => s.state
  | .dfaCopy => s.dfaCopy
  | .scrState => s.scrState

/-- A target can be read without a model fault: only STATE has `written` bits (R36). -/
abbrev State.targetReady (s : State) (x : Target) : Prop := x = .state → s.stateWritten

/-- The 16 bytes of a key selector (R136). -/
def State.keyBytes (s : State) : KeySel → Block
  | .round n => roundKey s.sched n
  | .scratch => s.scrKey

/-- A key can be read without a model fault. -/
abbrev State.keyReady (s : State) : KeySel → Prop
  | .round n => roundKeyWritten s.written.sched n = Vector.replicate 16 true
  | .scratch => True

/-! ### What the sequencer's list holds (R79) -/

/-- A target some invocation of the build works on: DFA_COPY only with ANTIDFA_EN, SCR_STATE only with DUMMY_EN. -/
def targetUsed (c : Config.BuildFlags) : Target → Bool
  | .state => true
  | .dfaCopy => c.antidfaEn
  | .scrState => c.dummyEn

/-- A decoy uses SCR_STATE with SCR_KEY, a real invocation neither (R175 to R177). -/
def keyFits : Target → KeySel → Bool
  | .scrState, .scratch => true
  | .state, .round _ => true
  | .dfaCopy, .round _ => true
  | .scrState, .round _ => false
  | .state, .scratch => false
  | .dfaCopy, .scratch => false

/-- A command that encrypts. -/
def encrypts : Command → Bool
  | .ecbEnc | .cbcEnc => true
  | .ecbDec | .cbcDec | .expandKey | .seed => false

/-- A command that decrypts. -/
def decrypts : Command → Bool
  | .ecbDec | .cbcDec => true
  | .ecbEnc | .cbcEnc | .expandKey | .seed => false

/-- A command that uses IV. -/
def usesIv : Command → Bool
  | .cbcEnc | .cbcDec => true
  | .ecbEnc | .ecbDec | .expandKey | .seed => false

/-- The commands a round kind belongs to. -/
def kindOf (cmd : Command) : RoundKind → Bool
  | .round | .lastRound => encrypts cmd
  | .firstInvRound | .invRound => decrypts cmd

/-- The micro-steps that the rules of 41 to 44 list for `cmd` in the build `c` (R79). -/
def produced (c : Config.BuildFlags) (cmd : Command) : Instr → Bool
  | .keyCopy => cmd == .expandKey
  | .keyWord i => cmd == .expandKey && decide (4 ≤ i.val)
  | .subBytes x | .shiftRows x | .mixColumns x => encrypts cmd && targetUsed c x
  | .invSubBytes x | .invShiftRows x | .invMixColumns x => decrypts cmd && targetUsed c x
  | .addRoundKey x k => cmd.isCipher && targetUsed c x && keyFits x k
  | .xorIv x => usesIv cmd && targetUsed c x && x.isReal
  | .round x k => kindOf cmd .round && targetUsed c x && keyFits x k && RoundKind.round.takes k
  | .lastRound x k => kindOf cmd .lastRound && targetUsed c x && keyFits x k && RoundKind.lastRound.takes k
  | .firstInvRound x k =>
    kindOf cmd .firstInvRound && targetUsed c x && keyFits x k && RoundKind.firstInvRound.takes k
  | .invRound x k => kindOf cmd .invRound && targetUsed c x && keyFits x k && RoundKind.invRound.takes k
  | .idle => cmd.isCipher && (c.rdelayEn || c.antidfaEn)
  | .delay .short | .delay .long => cmd.isCipher && c.rdelayEn
  | .delay .dualComputation => cmd.isCipher && c.antidfaEn
  | .decoyGroup kind x n =>
    kindOf cmd kind && c.dummyEn && targetUsed c x && x.isReal && kind.takes (.round n)
  | .decoyFill => cmd.isCipher && c.dummyEn
  | .dfaSnapshot | .dfaCompare | .dual => cmd.isCipher && c.antidfaEn
  | .prngSeed => cmd == .seed
  | .expandKey | .ecbEnc | .ecbDec | .cbcEnc | .cbcDec | .seed => false
  | .hostWr _ _ | .hostRd _ => false
  | .sboxLookup _ | .invSboxLookup _ | .gfMul _ _ _ => false

/-- The sequencer's invariant: while a command runs, the build has the command, its list is not empty, the head of the
list is no macro (R76), and every entry is one the command's rules produce (R79). -/
def State.seqOk (s : State) : Bool :=
  match s.seq with
  | .idle => true
  | .running _ [] => false
  | .running cmd (u :: rest) =>
    commandPresent s.config cmd && !isMacro u && (u :: rest).all (produced s.config cmd)

/-! ### Whole commands -/

/-- The net effect of a cipher command on STATE (R151 to R154); EXPAND_KEY and SEED leave STATE. -/
def netEffect (cmd : Command) (x : Block) (r : Sched) (iv : Block) : Block :=
  match cmd with
  | .ecbEnc => enc x r
  | .ecbDec => dec x r
  | .cbcEnc => enc (xorBlock x iv) r
  | .cbcDec => xorBlock (dec x r) iv
  | .expandKey | .seed => x

/-- The buffers a cipher command reads are written: STATE and SCHED, and IV for CBC (R75). -/
abbrev State.inputsWritten (s : State) (cmd : Command) : Prop :=
  s.stateWritten ∧ s.schedWritten ∧ (usesIv cmd = true → s.ivWritten)

/-- The coming turns are the host's and the sequencer's, in any order (R76): no reset and no fault event is among them
(log 9). -/
abbrev State.onlyHostAndCore (s : State) : Prop := ∀ a ∈ s.turns, a = .host ∨ a = .core

/-- The state right after a command has been accepted and the macros at the head of its list replaced (R72, R76). -/
def State.started (s : State) (cmd : Command) : State := settle (s.accept cmd)

/-- Whether an entry of a list makes a real invocation on target `x` read byte `p` of SCHED: it adds the round key that
byte lies in (R136, R140 to R143, R175). -/
def readsSched (x : Target) (p : Fin 176) : Instr → Bool
  | .addRoundKey y (.round n) | .round y (.round n) | .lastRound y (.round n) => y == x && n.val == p.val / 16
  | .firstInvRound y (.round n) | .invRound y (.round n) => y == x && n.val == p.val / 16
  | .decoyGroup _ y n => y == x && n.val == p.val / 16
  | .addRoundKey _ .scratch | .round _ .scratch | .lastRound _ .scratch => false
  | .firstInvRound _ .scratch | .invRound _ .scratch => false
  | .expandKey | .ecbEnc | .ecbDec | .cbcEnc | .cbcDec | .seed | .hostWr _ _ | .hostRd _ => false
  | .keyCopy | .keyWord _ | .subBytes _ | .invSubBytes _ | .shiftRows _ | .invShiftRows _ => false
  | .mixColumns _ | .invMixColumns _ | .xorIv _ | .idle | .delay _ | .decoyFill => false
  | .dfaSnapshot | .dfaCompare | .dual | .prngSeed => false
  | .sboxLookup _ | .invSboxLookup _ | .gfMul _ _ _ => false

/-! ### What reads see and record (R205) -/

/-- Whether the core reads byte `j` of a target as it stands: the hidden buffers always, STATE where it is written. -/
def State.targetWritten (s : State) (x : Target) (j : Fin 16) : Bool :=
  match x with
  | .state => s.written.state[j]
  | .dfaCopy | .scrState => true

/-- Whether the core reads byte `j` of a key as it stands. -/
def State.keyByteWritten (s : State) (k : KeySel) (j : Fin 16) : Bool :=
  match k with
  | .round n => s.written.sched[16 * n.val + j.val]
  | .scratch => true

/-- `a` is what a read of target `x` may see: its bytes, any value where one is unwritten (R205). -/
def State.seesTarget (s : State) (x : Target) (a : Block) : Prop :=
  ∀ j : Fin 16, s.targetWritten x j = true → a[j] = (s.bytesOf x)[j]

/-- `a` is what a read of key `k` may see (R136, R205). -/
def State.seesKey (s : State) (k : KeySel) (a : Block) : Prop :=
  ∀ j : Fin 16, s.keyByteWritten k j = true → a[j] = (s.keyBytes k)[j]

/-- `a` is what a read of the bytes `v` with the `written` bits `w` may see (R205). -/
def sees {n : Nat} (v : Vector Byte n) (w : Vector Bool n) (a : Vector Byte n) : Prop :=
  ∀ j : Fin n, w[j] = true → a[j] = v[j]

/-- The model faults of reading `n` bytes of buffer `e` from index `off` on, one per unwritten byte, in order (R205). -/
def lostReads {n : Nat} (e : DataBuf) (off : Nat) (w : Vector Bool n) : List Fault :=
  ((List.range n).filter fun j => w[j]? == some false).map fun j => .unwrittenRead e (off + j)

/-- The model faults of reading a target. -/
def State.targetFaults (s : State) : Target → List Fault
  | .state => lostReads .state 0 s.written.state
  | .dfaCopy | .scrState => []

/-- The model faults of reading a key. -/
def State.keyFaults (s : State) : KeySel → List Fault
  | .round n => lostReads .sched (16 * n.val) (roundKeyWritten s.written.sched n)
  | .scratch => []

/-- The model faults an instruction records (R205): unwritten bytes its rule reads, in increasing order, or a host
write while busy. -/
def State.recorded (s : State) : Instr → List Fault
  | .expandKey => if s.busy then [.hostWriteWhileBusy 0x34 0x01] else []
  | .ecbEnc => if s.busy then [.hostWriteWhileBusy 0x34 0x02] else []
  | .ecbDec => if s.busy then [.hostWriteWhileBusy 0x34 0x03] else []
  | .cbcEnc => if s.busy then [.hostWriteWhileBusy 0x34 0x04] else []
  | .cbcDec => if s.busy then [.hostWriteWhileBusy 0x34 0x05] else []
  | .seed => if s.busy then [.hostWriteWhileBusy 0x34 0x06] else []
  | .hostWr a d => if s.busy then [.hostWriteWhileBusy a d] else []
  | .hostRd _ => []
  | .keyCopy => lostReads .key 0 s.written.key
  | .keyWord i =>
    lostReads .sched (4 * (i.val - 4)) (wordWritten s.written.sched (wordBefore i 4)) ++
      lostReads .sched (4 * (i.val - 1)) (wordWritten s.written.sched (wordBefore i 1))
  | .subBytes x | .invSubBytes x | .shiftRows x | .invShiftRows x | .mixColumns x | .invMixColumns x =>
    s.targetFaults x
  | .addRoundKey x k => s.targetFaults x ++ s.keyFaults k
  | .xorIv x => s.targetFaults x ++ lostReads .iv 0 s.written.iv
  | .dfaSnapshot | .dfaCompare => lostReads .state 0 s.written.state
  | .prngSeed => lostReads .seed 0 s.written.seed
  | .round _ _ | .lastRound _ _ | .firstInvRound _ _ | .invRound _ _ => []
  | .idle | .delay _ | .decoyGroup _ _ _ | .decoyFill | .dual => []
  | .sboxLookup _ | .invSboxLookup _ | .gfMul _ _ _ => []

/-- The place of a buffer in the order of R205: STATE, IV, KEY, SCHED, SEED. -/
def bufRank : DataBuf → Nat
  | .state => 0
  | .iv => 1
  | .key => 2
  | .sched => 3
  | .seed => 4

/-- The order of R205 on the faults of one step: by buffer, then by index. -/
def faultBefore : Fault → Fault → Prop
  | .unwrittenRead e i, .unwrittenRead f j => bufRank e < bufRank f ∨ (e = f ∧ i < j)
  | .unwrittenRead _ _, .hostWriteWhileBusy _ _ => False
  | .hostWriteWhileBusy _ _, _ => False

/-! ### Lists of micro-steps, bytes of all buffers, products -/

/-- Perform a list of instructions one after another. -/
def execAll : List Instr → State → Result
  | [], s => .next s
  | i :: rest, s =>
    match exec i s with
    | .next t => execAll rest t
    | .fault r => .fault r
    | .refused r => .refused r

/-- The net effect of a round kind on a block (R140 to R143). -/
def kindFn : RoundKind → Block → Block → Block
  | .round => roundFn
  | .lastRound => lastRoundFn
  | .firstInvRound => firstInvRoundFn
  | .invRound => invRoundFn

/-- A byte of any buffer a fault event can replace (R190). -/
def State.hwByteAt (s : State) : HwByte → Byte
  | .data d => s.byteAt d
  | .dfaCopy j => s.dfaCopy[j]
  | .scrState j => s.scrState[j]
  | .scrKey j => s.scrKey[j]

/-- The product of two polynomials over GF(2) given by their coefficients, the first of degree at most 7 (R101). -/
def clmul (a : Byte) (b : BitVec 16) : BitVec 16 :=
  (List.range 8).foldl (fun acc i => if a.getLsbD i then acc ^^^ (b <<< i) else acc) 0

/-- `rotl8(x, n)` (R10). -/
def rotl8 (x : Byte) (n : Nat) : Byte := x.rotateLeft n

end Sys2Proof.Machine
end

