-- ==== Sys2Proof/Certificates/Slice0/Obligations.lean ====
section
/-!
DEFINITION. The statements for the provers, each from a numbered rule of spec/ or from sections of it. `draws`, the
model's own count of draws, is left open wherever a draw may be taken (log 2).
-/
section
open Sys2Proof Sys2Proof.Machine

/-! ### Encoding (30_encoding) -/

/-- Words written out from the tables of R71, R74, R77 and R78 decode to the instructions they stand for. Two things are
the model's choice: the operand bytes of GF_MUL's word, whose id alone R80 gives (log 11), and that words the tables leave
out are refused, each by a name (log 20). -/
def Obligations.TableWordsDecode : Prop :=
  decode (.cmd 0x02#8) = .ok .ecbEnc ∧
  decode (.cmd 0x06#8) = .ok .seed ∧
  decode (.host 0x13402#17) = .ok (.hostWr 0x34#8 0x02#8) ∧
  decode (.host 0x03500#17) = .ok (.hostRd 0x35#8) ∧
  decode (.ustep 0x5104#16) = .ok (.keyWord 4) ∧
  decode (.ustep 0x6040#16) = .ok (.subBytes .dfaCopy) ∧
  decode (.ustep 0x66BF#16) = .ok (.addRoundKey .scrState .scratch) ∧
  decode (.ustep 0x6743#16) = .error .unusedFieldSet ∧
  decode (.ustep 0x7009#16) = .ok (.round .state (.round 9)) ∧
  decode (.ustep 0x8102#16) = .ok (.delay .dualComputation) ∧
  decode (.ustep24 0x824A71#24) = .ok (.decoyGroup .lastRound .dfaCopy 10) ∧
  decode (.func 0x1B835742#32) = .ok (.gfMul 0x57#8 0x83#8 0x1B#8) ∧
  decode (.cmd 0x00#8) = .error (.reservedCommand 0x00#8) ∧
  decode (.ustep 0x60C0#16) = .error .targetNeverProduced ∧
  decode (.ustep 0x700A#16) = .error (.operandOutOfRange 10#6)

/-- Decoding the word of a well-formed instruction gives the instruction back, whatever its operands. (The operand bytes of
a function's word are the model's choice, since R80 gives an id alone: log 11.) -/
def Obligations.EncodedInstructionsDecodeBack : Prop :=
  ∀ i : Instr, i.wf = true → decode (encode i) = .ok i

/-- What decodes is well formed, and its word is the encoder's: only the data bits of a host read, which R74 leaves to
writes, are not kept (log 12); its address bits are. That a function has one word, its operand bytes above its id and a byte
it does not take 0, is the model's choice, since R80 gives an id alone (log 11). -/
def Obligations.DecodedWordsAreWellFormedAndUnique : Prop :=
  ∀ (r : RawWord) (i : Instr), decode r = .ok i →
    i.wf = true ∧ (encode i = r ∨ ∃ a d : Byte, i = .hostRd a ∧ r = .host (0#1 ++ a ++ d))

/-- The register map of R52, address by address. -/
def Obligations.RegisterMapIsTheTable : Prop :=
  (∀ j : Fin 16, locate (BitVec.ofNat 8 j.val) = .data (.state j)) ∧
  (∀ j : Fin 16, locate (BitVec.ofNat 8 (0x10 + j.val)) = .data (.iv j)) ∧
  (∀ j : Fin 16, locate (BitVec.ofNat 8 (0x20 + j.val)) = .data (.key j)) ∧
  (∀ j : Fin 4, locate (BitVec.ofNat 8 (0x30 + j.val)) = .data (.seed j)) ∧
  locate 0x34#8 = .cmd ∧ locate 0x35#8 = .status ∧ locate 0x36#8 = .config ∧
  (∀ j : Fin 9, locate (BitVec.ofNat 8 (0x37 + j.val)) = .reserved) ∧
  (∀ j : Fin 176, locate (BitVec.ofNat 8 (0x40 + j.val)) = .data (.sched j)) ∧
  (∀ j : Fin 16, locate (BitVec.ofNat 8 (0xF0 + j.val)) = .reserved)

/-! ### Reset and steps (70_reset, 30_encoding R76) -/

/-- What reset leaves, in every build, where R38 gives a value: the sequencer Idle, STATUS 0x00, CONFIG the build's,
every byte of every data buffer unwritten, the ghosts as at the start of a run, and the fault model the default `none`
of R190. That `State.reset` itself is the default build, whose CONFIG is 0x00, is the model's choice (log 8). -/
def Obligations.ResetLeavesTheGivenValues : Prop :=
  (∀ c : Config.BuildFlags,
    let s := State.resetOf c
    s.seq = .idle ∧ s.statusByte = 0x00#8 ∧ s.config = c ∧ (∀ d : DataByte, s.isWritten d = false) ∧
      s.faults = [] ∧ s.refused = false ∧ s.mismatch = 0 ∧ s.faultModel = .none) ∧
  State.reset = State.resetOf Config.defaultBuild ∧ State.reset.configByte = 0x00#8

/-- A step runs the instruction its agent's turn gives: the host's transaction, decoded, with its line taken off the
program and a read's byte bound; the polling read of `wait`; the micro-step at the head of the sequencer's list, taken
off it. After the turn, macros at the head of the list are replaced (`settle`, R76). An `rd` line appends the byte read to
`got`, and no other instruction does (R82; log 10); `wait` keeps its line while bit 0 of the byte read is 1 and drops it when it is
0 (R83). What is done is put at the head of `past` (log 16). -/
def Obligations.StepRunsTheTurnsInstruction : Prop :=
  (∀ (s : State) (t : BitVec 17) (rest : List HostLine), s.nextTurn = .host → s.host = .txn t :: rest →
    step s = mapNext (fun r => settle (r.bindRead (decodeHost t)))
      (exec (decodeHost t) { s.dropTurn with host := rest, past := .host t :: s.past })) ∧
  (∀ (s : State) (rest : List HostLine), s.nextTurn = .host → s.host = .wait :: rest →
    step s = mapNext (fun r => settle (r.afterPoll rest))
      (exec (.hostRd 0x35#8) { s.dropTurn with past := .poll :: s.past })) ∧
  (∀ (s : State) (c : Command) (u : Instr) (rest : List Instr), s.nextTurn = .core →
    s.seq = .running c (u :: rest) →
    step s = mapNext settle (exec u { s.dropTurn with seq := .running c rest, past := .core u :: s.past })) ∧
  (∀ (r : State) (a : Byte), r.bindRead (.hostRd a) = { r with got := r.got ++ [r.readData] }) ∧
  (∀ (r : State) (i : Instr), (∀ a, i ≠ .hostRd a) → r.bindRead i = r) ∧
  (∀ (r : State) (rest : List HostLine), r.readData.getLsbD 0 = true → r.afterPoll rest = r) ∧
  (∀ (r : State) (rest : List HostLine), r.readData.getLsbD 0 = false → r.afterPoll rest = { r with host := rest })

/-- A decoded word placed where the next step takes it is what that step runs: a command (as the write of its byte to
CMD), a host transaction or a function on the state as it is; a micro-step, at Idle, under a command's list that then
holds nothing else (log 21). What is done is put at the head of `past` (log 16). -/
def Obligations.StepRunsThePlacedWord : Prop :=
  ∀ (s : State) (nbits w : Nat) (i : Instr), decodeTableWord nbits w = some i →
    (∀ t : BitVec 17, (encode i = .host t ∨ ∃ v : Byte, encode i = .cmd v ∧ t = 1#1 ++ 0x34#8 ++ v) →
      step (s.withFetchWord nbits w) =
        mapNext (fun r => settle (r.bindRead i)) (exec i { s with past := .host t :: s.past })) ∧
    (∀ f : BitVec 32, encode i = .func f →
      step (s.withFetchWord nbits w) = mapNext settle (exec i { s with past := .func f :: s.past })) ∧
    (((∃ u, encode i = .ustep u) ∨ ∃ u, encode i = .ustep24 u) → s.seq = .idle →
      step (s.withFetchWord nbits w) =
        mapNext settle (exec i { s with seq := .running (hostingCommand i) [], past := .core i :: s.past }))

/-- The sequencer's invariant holds after reset, in every build. -/
def Obligations.SequencerInvariantAtReset : Prop :=
  ∀ c : Config.BuildFlags, (State.resetOf c).seqOk = true

/-- Every step, whoever's turn it is, keeps the sequencer's invariant: a running command is one the build has, its list
is not empty, no macro stands at the head (R76), and every entry is one the command's rules produce (R79). -/
def Obligations.EveryStepKeepsTheSequencerInvariant : Prop :=
  ∀ s t : State, s.seqOk = true → step s = .next t → t.seqOk = true

/-- Under the invariant no turn of the host, the sequencer or a reset stops the machine (R200: no command stops
part-way because of a condition inside the core). -/
def Obligations.NoTurnOfTheCoreOrHostStops : Prop :=
  ∀ s : State, s.seqOk = true → (s.nextTurn = .host ∨ s.nextTurn = .core ∨ s.nextTurn = .reset) →
    ∃ t, step s = .next t

/-- From every state that meets the invariant, when no other agent acts (log 9), the running command ends after finitely
many steps (R76). -/
def Obligations.EveryCommandEnds : Prop :=
  ∀ s : State, s.seqOk = true → s.turns = [] →
    ∃ (n : Nat) (t : State), Host.Core.run core n s = .next t ∧ t.seq = .idle

/-- No step changes the build's configuration (R7, R29) or the fault model, which the model keeps in State (log 16). -/
def Obligations.NoStepChangesConfig : Prop :=
  ∀ s t : State, step s = .next t → t.config = s.config ∧ t.configByte = s.configByte ∧ t.faultModel = s.faultModel

/-- The ghosts are never cleared: recorded faults stay, `refused` stays set, `mismatch` never falls, and one step
counts at most one mismatch (R36, R205, R207, R231). -/
def Obligations.GhostsAreNeverCleared : Prop :=
  ∀ s t : State, step s = .next t →
    (∃ l, t.faults = s.faults ++ l) ∧ (s.refused = true → t.refused = true) ∧
      (t.mismatch = s.mismatch ∨ t.mismatch = s.mismatch + 1)

/-- An environment reset, at any point: the sequencer is Idle, BUSY 0, every byte of the data buffers unwritten, so that
a host read of any of them is a draw; CONFIG and the three ghosts stay (R230, R231, R232). The byte read stands in the
model's `readData` (log 10), and a draw is the next free byte (log 2). -/
def Obligations.EnvironmentResetForgetsTheBuffers : Prop :=
  ∀ s : State, s.nextTurn = .reset → ∃ t, step s = .next t ∧
    t.seq = .idle ∧ t.statusByte = 0x00#8 ∧ (∀ d : DataByte, t.isWritten d = false) ∧
    (∀ (a : Byte) (d : DataByte), locate a = .data d →
      exec (.hostRd a) t = .next { t with readData := Config.freeByte t.draws, draws := t.draws + 1 }) ∧
    t.config = s.config ∧ t.faults = s.faults ∧ t.refused = s.refused ∧ t.mismatch = s.mismatch

/-- A fault event that the fault model admits replaces one byte of one buffer and leaves every other byte and everything
else of the core as it was (R190, R191); of the model's own fields it counts the event, records it in `past` and takes its
turn off (log 9, log 16). Which events are admitted: none under `none`, one per command while BUSY under OnePerCommand, all
under Any, and under any other fault model those of its predicate on the event and the run so far (R190). That an event not
admitted is refused by name is the model's choice (log 16). -/
def Obligations.CorruptionReplacesOneByte : Prop :=
  ∀ (s : State) (b : HwByte) (v : Byte), s.nextTurn = .corrupt b v → s.seqOk = true →
    (s.admitsInjection b v = true → ∃ t, step s = .next t ∧ t.hwByteAt b = v ∧
      (∀ b' : HwByte, b' ≠ b → t.hwByteAt b' = s.hwByteAt b') ∧
      t = { s with
            state := t.state, iv := t.iv, key := t.key, seed := t.seed, sched := t.sched, dfaCopy := t.dfaCopy,
            scrState := t.scrState, scrKey := t.scrKey, injections := s.injections + 1, turns := s.turns.tail,
            past := .corrupt b v :: s.past }) ∧
    (s.admitsInjection b v = false → step s = .refused .injectionNotAdmitted) ∧
    (s.admitsInjection b v = true ↔
      (s.faultModel = .onePerCommand ∧ s.statusByte = 0x01#8 ∧ s.injections = 0) ∨ s.faultModel = .any ∨
        (s.faultModel = .given ∧ Config.givenFaultModel s.config s.past b v = true))

/-! ### Commands and host accesses (20_memory, 30_encoding) -/

/-- R72. A write to CMD while idle: a present command is accepted, `seq <- Running(v, steps(v))` and BUSY becomes 1;
any other value is ignored by the hardware and sets the ghost `refused`. (`injections` is the model's own count, log
16.) -/
def Obligations.CommandWriteIsAcceptedOrRefused : Prop :=
  ∀ (s : State) (v : Byte), s.busy = false →
    ((v = 0x01 ∨ v = 0x03 ∨ v = 0x05 ∨ v = 0x06 ∨ ((v = 0x02 ∨ v = 0x04) ∧ s.config.encEn = true)) →
      ∃ c : Command, c.byte = v ∧ ∃ t : State, exec (.hostWr 0x34 v) s = .next t ∧
        t = { s with seq := .running c (commandSteps s.config c), injections := 0 } ∧ t.statusByte = 0x01#8) ∧
    (¬ (v = 0x01 ∨ v = 0x03 ∨ v = 0x05 ∨ v = 0x06 ∨ ((v = 0x02 ∨ v = 0x04) ∧ s.config.encEn = true)) →
      exec (.hostWr 0x34 v) s = .next { s with refused := true })

/-- The six command instructions: accepted while idle where the build has them (R71, R72); refused while idle where it
has not; a model fault while busy, whatever the command (R57, R211). (`injections` is the model's own count, log 16.) -/
def Obligations.CommandInstructionsIssueTheirByte : Prop :=
  ∀ (s : State) (c : Command),
    (s.busy = false → commandPresent s.config c = true →
      exec c.instr s = .next { s with seq := .running c (commandSteps s.config c), injections := 0 }) ∧
    (s.busy = false → commandPresent s.config c = false → exec c.instr s = .next { s with refused := true }) ∧
    (s.busy = true →
      exec c.instr s = .next { s with faults := s.faults ++ [.hostWriteWhileBusy 0x34 c.byte] })

/-- The lists commands start with: spelled out for a build with the hardening flags 0 (R122, R151 to R154, R156), and for
every build as R186 composes them: a standalone pass with a short delay before and after (R173), a round kind or its call
group (R178) with a long delay before and after (R173), DUAL in place of the body with ANTIDFA_EN, and a long delay before
and after the whole (R173); EXPAND_KEY and SEED get none. -/
def Obligations.BaseCommandLists : Prop :=
  (∀ c : Config.BuildFlags, c.rdelayEn = false → c.dummyEn = false → c.antidfaEn = false →
    commandSteps c .expandKey = .keyCopy :: ((List.finRange 44).drop 4).map .keyWord ∧
    commandSteps c .ecbEnc =
      [.addRoundKey .state (.round 0)] ++
        [1, 2, 3, 4, 5, 6, 7, 8, 9].map (fun n => .round .state (.round n)) ++ [.lastRound .state (.round 10)] ∧
    commandSteps c .ecbDec =
      [.firstInvRound .state (.round 10)] ++
        [9, 8, 7, 6, 5, 4, 3, 2, 1].map (fun n => .invRound .state (.round n)) ++
        [.addRoundKey .state (.round 0)] ∧
    commandSteps c .cbcEnc = .xorIv .state :: commandSteps c .ecbEnc ∧
    commandSteps c .cbcDec = commandSteps c .ecbDec ++ [.xorIv .state] ∧
    commandSteps c .seed = [.prngSeed]) ∧
  (∀ (c : Config.BuildFlags) (x : Target),
    let pad (p : Instr) : List Instr := if c.rdelayEn then [.delay .short, p, .delay .short] else [p]
    let grp (kind : RoundKind) (n : Fin 11) : List Instr :=
      if c.dummyEn then [.decoyGroup kind x n] else [roundWord kind x (.round n)]
    let rnd (kind : RoundKind) (n : Fin 11) : List Instr :=
      if c.rdelayEn then [.delay .long] ++ grp kind n ++ [.delay .long] else grp kind n
    let enc := pad (.addRoundKey x (.round 0)) ++ [1, 2, 3, 4, 5, 6, 7, 8, 9].flatMap (rnd .round) ++ rnd .lastRound 10
    let dec :=
      rnd .firstInvRound 10 ++ [9, 8, 7, 6, 5, 4, 3, 2, 1].flatMap (rnd .invRound) ++ pad (.addRoundKey x (.round 0))
    cipherBody c .ecbEnc x = enc ∧ cipherBody c .ecbDec x = dec ∧
      cipherBody c .cbcEnc x = pad (.xorIv x) ++ enc ∧ cipherBody c .cbcDec x = dec ++ pad (.xorIv x)) ∧
  (∀ (c : Config.BuildFlags) (cmd : Command), cmd.isCipher = true →
    let mid := if c.antidfaEn then [.dual] else cipherBody c cmd .state
    commandSteps c cmd = if c.rdelayEn then [.delay .long] ++ mid ++ [.delay .long] else mid) ∧
  (∀ c : Config.BuildFlags,
    commandSteps c .expandKey = .keyCopy :: ((List.finRange 44).drop 4).map .keyWord ∧
      commandSteps c .seed = [.prngSeed])

/-- R56. A host write while idle. To a data buffer: the byte is stored and its `written` bit set, every other byte of
every data buffer stays, and nothing else changes. To STATUS, CONFIG or a reserved address: nothing changes. -/
def Obligations.IdleHostWriteStoresOneByte : Prop :=
  ∀ (s : State) (a v : Byte), s.busy = false →
    (∀ d : DataByte, locate a = .data d → ∃ t : State, exec (.hostWr a v) s = .next t ∧
      t.byteAt d = v ∧ t.isWritten d = true ∧
      (∀ d' : DataByte, d' ≠ d → t.byteAt d' = s.byteAt d' ∧ t.isWritten d' = s.isWritten d') ∧
      t = { s with state := t.state, iv := t.iv, key := t.key, seed := t.seed, sched := t.sched,
                   written := t.written }) ∧
    ((locate a = .status ∨ locate a = .config ∨ locate a = .reserved) → exec (.hostWr a v) s = .next s)

/-- R55. A host read while idle: a written byte of a data buffer exactly, an unwritten one as a draw; CMD and reserved
addresses 0x00, STATUS 0x00, CONFIG the build's flags. The byte stands in the model's `readData` (log 10), a draw is the
next free byte (log 2); nothing else changes. -/
def Obligations.IdleHostReadReturnsTheByte : Prop :=
  ∀ (s : State) (a : Byte), s.busy = false →
    (∀ d : DataByte, locate a = .data d → s.isWritten d = true →
      exec (.hostRd a) s = .next { s with readData := s.byteAt d }) ∧
    (∀ d : DataByte, locate a = .data d → s.isWritten d = false →
      exec (.hostRd a) s = .next { s with readData := Config.freeByte s.draws, draws := s.draws + 1 }) ∧
    ((locate a = .cmd ∨ locate a = .reserved ∨ locate a = .status) →
      exec (.hostRd a) s = .next { s with readData := 0x00#8 }) ∧
    (locate a = .config → ∃ b : Byte, exec (.hostRd a) s = .next { s with readData := b } ∧
      b.getLsbD 0 = s.config.encEn ∧ b.getLsbD 1 = s.config.rdelayEn ∧ b.getLsbD 2 = s.config.dummyEn ∧
      b.getLsbD 3 = s.config.antidfaEn ∧ ∀ i, 4 ≤ i → b.getLsbD i = false)

/-- R57. While busy: STATUS reads 0x01 and CONFIG exactly, a data buffer reads as a draw, CMD and reserved addresses
read 0x00; every write, to any address, records the model fault and changes nothing else. The byte read stands in the
model's `readData` (log 10), a draw is the next free byte (log 2). -/
def Obligations.BusyHostAccesses : Prop :=
  ∀ (s : State) (a v : Byte), s.busy = true →
    (locate a = .status → exec (.hostRd a) s = .next { s with readData := 0x01#8 }) ∧
    (locate a = .config → exec (.hostRd a) s = .next { s with readData := s.configByte }) ∧
    (∀ d : DataByte, locate a = .data d →
      exec (.hostRd a) s = .next { s with readData := Config.freeByte s.draws, draws := s.draws + 1 }) ∧
    ((locate a = .cmd ∨ locate a = .reserved) → exec (.hostRd a) s = .next { s with readData := 0x00#8 }) ∧
    exec (.hostWr a v) s = .next { s with faults := s.faults ++ [.hostWriteWhileBusy a v] }

/-- A host that writes a byte of a data buffer while idle reads it back, and every other address holds what it held
(R55, R56, R60). The byte read stands in the model's `readData` (log 10). -/
def Obligations.HostReadsBackWhatItWrote : Prop :=
  ∀ (s : State) (a v : Byte) (d : DataByte), s.busy = false → locate a = .data d →
    ∃ t : State, exec (.hostWr a v) s = .next t ∧ exec (.hostRd a) t = .next { t with readData := v } ∧
      t.stored a = some v ∧ ∀ a' : Byte, a' ≠ a → t.stored a' = s.stored a'

/-- No host access reaches `prng`, DFA_COPY, SCR_STATE or SCR_KEY: what it answers and changes does not depend on them,
and it leaves them (R35). -/
def Obligations.HostAccessNeverReachesHiddenState : Prop :=
  ∀ (s : State) (a v : Byte) (p : Config.PrngState) (x y z : Block),
    exec (.hostRd a) { s with prng := p, dfaCopy := x, scrState := y, scrKey := z } =
      mapNext (fun t => { t with prng := p, dfaCopy := x, scrState := y, scrKey := z }) (exec (.hostRd a) s) ∧
    exec (.hostWr a v) { s with prng := p, dfaCopy := x, scrState := y, scrKey := z } =
      mapNext (fun t => { t with prng := p, dfaCopy := x, scrState := y, scrKey := z }) (exec (.hostWr a v) s) ∧
    (∀ t, exec (.hostRd a) s = .next t →
      t.prng = s.prng ∧ t.dfaCopy = s.dfaCopy ∧ t.scrState = s.scrState ∧ t.scrKey = s.scrKey ∧ t.seq = s.seq) ∧
    (∀ t, exec (.hostWr a v) s = .next t →
      t.prng = s.prng ∧ t.dfaCopy = s.dfaCopy ∧ t.scrState = s.scrState ∧ t.scrKey = s.scrKey)

/-! ### Passes (42_round_transform). Each holds of every state: where the target or the key has unwritten bytes, the
pass sees some value for each of them, records one model fault for each, and completes (R205). The passes' own rules say
`Exceptions: none`, so that these faults are recorded too is the model's reading (log 14). -/

/-- R130. SUB_BYTES X: `X'[j] = SBOX[X[j]]`; one model fault per unwritten byte of X (R205; log 14); besides X and these
nothing changes. -/
def Obligations.SubBytesSubstitutesEveryByte : Prop :=
  ∀ (s : State) (x : Target), ∃ (t : State) (a : Block), exec (.subBytes x) s = .next t ∧ s.seesTarget x a ∧
    (∀ j : Fin 16, (t.bytesOf x)[j] = sbox a[j]) ∧
    t = { s.writeTarget x (t.bytesOf x) with faults := s.faults ++ s.targetFaults x, draws := t.draws }

/-- R131. INV_SUB_BYTES X: `X'[j] = INV_SBOX[X[j]]`; one model fault per unwritten byte of X (R205; log 14); besides X and
these nothing changes. -/
def Obligations.InvSubBytesSubstitutesEveryByte : Prop :=
  ∀ (s : State) (x : Target), ∃ (t : State) (a : Block), exec (.invSubBytes x) s = .next t ∧ s.seesTarget x a ∧
    (∀ j : Fin 16, (t.bytesOf x)[j] = invSbox a[j]) ∧
    t = { s.writeTarget x (t.bytesOf x) with faults := s.faults ++ s.targetFaults x, draws := t.draws }

/-- R132. SHIFT_ROWS X: `X'[r,c] = X[r, (c + r) mod 4]`; one model fault per unwritten byte of X (R205; log 14); besides X
and these nothing changes. -/
def Obligations.ShiftRowsRotatesRowsLeft : Prop :=
  ∀ (s : State) (x : Target), ∃ (t : State) (a : Block), exec (.shiftRows x) s = .next t ∧ s.seesTarget x a ∧
    (∀ r c : Fin 4, (t.bytesOf x)[4 * c.val + r.val] = a[4 * ((c.val + r.val) % 4) + r.val]) ∧
    t = { s.writeTarget x (t.bytesOf x) with faults := s.faults ++ s.targetFaults x, draws := t.draws }

/-- R133. INV_SHIFT_ROWS X: `X'[r,c] = X[r, (c + 4 - r) mod 4]`; one model fault per unwritten byte of X (R205; log 14);
besides X and these nothing changes. -/
def Obligations.InvShiftRowsRotatesRowsBack : Prop :=
  ∀ (s : State) (x : Target), ∃ (t : State) (a : Block), exec (.invShiftRows x) s = .next t ∧ s.seesTarget x a ∧
    (∀ r c : Fin 4, (t.bytesOf x)[4 * c.val + r.val] = a[4 * ((c.val + 4 - r.val) % 4) + r.val]) ∧
    t = { s.writeTarget x (t.bytesOf x) with faults := s.faults ++ s.targetFaults x, draws := t.draws }

/-- R134. MIX_COLUMNS X: every column is multiplied by the matrix {02,03,01,01; ...}; one model fault per unwritten byte of
X (R205; log 14); besides X and these nothing changes. -/
def Obligations.MixColumnsMultipliesColumns : Prop :=
  ∀ (s : State) (x : Target), ∃ (t : State) (a : Block), exec (.mixColumns x) s = .next t ∧ s.seesTarget x a ∧
    (∀ c : Fin 4,
      let s0 := a[4 * c.val]; let s1 := a[4 * c.val + 1]; let s2 := a[4 * c.val + 2]; let s3 := a[4 * c.val + 3]
      (t.bytesOf x)[4 * c.val] = gfMul 0x02 s0 0x1b ^^^ gfMul 0x03 s1 0x1b ^^^ s2 ^^^ s3 ∧
      (t.bytesOf x)[4 * c.val + 1] = s0 ^^^ gfMul 0x02 s1 0x1b ^^^ gfMul 0x03 s2 0x1b ^^^ s3 ∧
      (t.bytesOf x)[4 * c.val + 2] = s0 ^^^ s1 ^^^ gfMul 0x02 s2 0x1b ^^^ gfMul 0x03 s3 0x1b ∧
      (t.bytesOf x)[4 * c.val + 3] = gfMul 0x03 s0 0x1b ^^^ s1 ^^^ s2 ^^^ gfMul 0x02 s3 0x1b) ∧
    t = { s.writeTarget x (t.bytesOf x) with faults := s.faults ++ s.targetFaults x, draws := t.draws }

/-- R135. INV_MIX_COLUMNS X: every column is multiplied by the matrix {0e,0b,0d,09; ...}; one model fault per unwritten byte
of X (R205; log 14); besides X and these nothing changes. -/
def Obligations.InvMixColumnsMultipliesColumns : Prop :=
  ∀ (s : State) (x : Target), ∃ (t : State) (a : Block), exec (.invMixColumns x) s = .next t ∧ s.seesTarget x a ∧
    (∀ c : Fin 4,
      let s0 := a[4 * c.val]; let s1 := a[4 * c.val + 1]; let s2 := a[4 * c.val + 2]; let s3 := a[4 * c.val + 3]
      (t.bytesOf x)[4 * c.val] =
        gfMul 0x0e s0 0x1b ^^^ gfMul 0x0b s1 0x1b ^^^ gfMul 0x0d s2 0x1b ^^^ gfMul 0x09 s3 0x1b ∧
      (t.bytesOf x)[4 * c.val + 1] =
        gfMul 0x09 s0 0x1b ^^^ gfMul 0x0e s1 0x1b ^^^ gfMul 0x0b s2 0x1b ^^^ gfMul 0x0d s3 0x1b ∧
      (t.bytesOf x)[4 * c.val + 2] =
        gfMul 0x0d s0 0x1b ^^^ gfMul 0x09 s1 0x1b ^^^ gfMul 0x0e s2 0x1b ^^^ gfMul 0x0b s3 0x1b ∧
      (t.bytesOf x)[4 * c.val + 3] =
        gfMul 0x0b s0 0x1b ^^^ gfMul 0x0d s1 0x1b ^^^ gfMul 0x09 s2 0x1b ^^^ gfMul 0x0e s3 0x1b) ∧
    t = { s.writeTarget x (t.bytesOf x) with faults := s.faults ++ s.targetFaults x, draws := t.draws }

/-- R136. ADD_ROUND_KEY X, k: `X'[j] = X[j] ^ K[j]`, K the round key or SCR_KEY; one model fault per unwritten byte of
the round key (R136), after those of X (R205; log 14); besides X and these nothing changes. -/
def Obligations.AddRoundKeyAddsTheKey : Prop :=
  ∀ (s : State) (x : Target) (k : KeySel), ∃ (t : State) (a b : Block),
    exec (.addRoundKey x k) s = .next t ∧ s.seesTarget x a ∧ s.seesKey k b ∧
    (∀ j : Fin 16, (t.bytesOf x)[j] = a[j] ^^^ b[j]) ∧
    t = { s.writeTarget x (t.bytesOf x) with
          faults := s.faults ++ s.targetFaults x ++ s.keyFaults k, draws := t.draws }

/-- R150. XOR_IV X: `X'[j] = X[j] ^ IV[j]`; one model fault per unwritten byte of IV (R150), after those of X (R205; log
14); IV is not written, and besides X and these faults nothing changes. R150's targets are STATE and DFA_COPY; that the
model does the same on SCR_STATE, which no list names, is its choice (log 27). -/
def Obligations.XorIvAddsTheIv : Prop :=
  ∀ (s : State) (x : Target), ∃ (t : State) (a b : Block),
    exec (.xorIv x) s = .next t ∧ s.seesTarget x a ∧ sees s.iv s.written.iv b ∧
    (∀ j : Fin 16, (t.bytesOf x)[j] = a[j] ^^^ b[j]) ∧
    t = { s.writeTarget x (t.bytesOf x) with
          faults := s.faults ++ s.targetFaults x ++ lostReads .iv 0 s.written.iv, draws := t.draws }

/-- R140 to R143. While a list is running, a round kind's macro is replaced in place by its passes, each with a short
delay before and after in a build with RDELAY_EN (R173); and performing the passes has the kind's net effect on X. -/
def Obligations.RoundKindsExpandToTheirPasses : Prop :=
  (∀ (s : State) (c : Command) (rest : List Instr) (kind : RoundKind) (x : Target) (k : KeySel),
    s.seq = .running c rest →
    let passes : List Instr :=
      match kind with
      | .round => [.subBytes x, .shiftRows x, .mixColumns x, .addRoundKey x k]
      | .lastRound => [.subBytes x, .shiftRows x, .addRoundKey x k]
      | .firstInvRound => [.addRoundKey x k, .invShiftRows x, .invSubBytes x]
      | .invRound => [.addRoundKey x k, .invMixColumns x, .invShiftRows x, .invSubBytes x]
    let padded := passes.flatMap fun p => if s.config.rdelayEn then [.delay .short, p, .delay .short] else [p]
    exec (roundWord kind x k) s = .next { s with seq := .running c (padded ++ rest) }) ∧
  (∀ (s : State) (kind : RoundKind) (x : Target) (k : KeySel), s.targetReady x → s.keyReady k →
    execAll (roundPasses kind x k) s = .next (s.writeTarget x
      (match kind with
        | .round => xorBlock (mixColumns (shiftRows (subBytes (s.bytesOf x)))) (s.keyBytes k)
        | .lastRound => xorBlock (shiftRows (subBytes (s.bytesOf x))) (s.keyBytes k)
        | .firstInvRound => invSubBytes (invShiftRows (xorBlock (s.bytesOf x) (s.keyBytes k)))
        | .invRound => invSubBytes (invShiftRows (invMixColumns (xorBlock (s.bytesOf x) (s.keyBytes k)))))))

/-! ### Key schedule (41_key_schedule) -/

/-- R123. KEY_COPY: `SCHED[0..15] <- KEY[0..15]`; SCHED[16..175] and all else stay; one model fault per unwritten key
byte. -/
def Obligations.KeyCopyCopiesTheKey : Prop :=
  ∀ s : State, ∃ (t : State) (a : Block), exec .keyCopy s = .next t ∧ sees s.key s.written.key a ∧
    (∀ j : Fin 16, t.sched[j] = a[j] ∧ t.written.sched[j] = true) ∧
    (∀ j : Fin 176, 16 ≤ j.val → t.sched[j] = s.sched[j] ∧ t.written.sched[j] = s.written.sched[j]) ∧
    t = { s with sched := t.sched, written := { s.written with sched := t.written.sched },
                 faults := s.faults ++ lostReads .key 0 s.written.key, draws := t.draws }

/-- R124. KEY_WORD i: word i is word i-1 exclusive-or word i-4, where i is a multiple of 4 after rotating word i-1 left
by one byte, substituting its bytes and adding RCON[i/4] to the first; every other word and all else stay. One model
fault per unwritten byte of the two words (log 14); an index below 4 is no word of R77, and stops (log 17). -/
def Obligations.KeyWordComputesOneWord : Prop :=
  ∀ (s : State) (i : Fin 44),
    (∀ h : 4 ≤ i.val, ∃ (t : State) (p b : KeyWord), exec (.keyWord i) s = .next t ∧
      sees (wordAt s.sched (wordBefore i 1)) (wordWritten s.written.sched (wordBefore i 1)) p ∧
      sees (wordAt s.sched (wordBefore i 4)) (wordWritten s.written.sched (wordBefore i 4)) b ∧
      (i.val % 4 ≠ 0 → ∀ j : Fin 4, t.sched[4 * i.val + j.val] = p[j] ^^^ b[j]) ∧
      (i.val % 4 = 0 →
        t.sched[4 * i.val] = sbox p[1] ^^^ rcon ⟨i.val / 4, by omega⟩ ^^^ b[0] ∧
        t.sched[4 * i.val + 1] = sbox p[2] ^^^ b[1] ∧ t.sched[4 * i.val + 2] = sbox p[3] ^^^ b[2] ∧
        t.sched[4 * i.val + 3] = sbox p[0] ^^^ b[3]) ∧
      (∀ j : Fin 4, t.written.sched[4 * i.val + j.val] = true) ∧
      (∀ j : Fin 176, j.val / 4 ≠ i.val →
        t.sched[j] = s.sched[j] ∧ t.written.sched[j] = s.written.sched[j]) ∧
      t = { s with
            sched := t.sched, written := { s.written with sched := t.written.sched },
            faults := s.faults ++ s.recorded (.keyWord i), draws := t.draws }) ∧
    (i.val < 4 → exec (.keyWord i) s = .refused .wordIndexTooLow)

/-- R121. KeyExpand: round key 0 is the key, and every later word is one iteration of the loop on the two words before
it. -/
def Obligations.KeyExpandSatisfiesTheRecurrence : Prop :=
  ∀ k : Block,
    roundKey (keyExpand k) 0 = k ∧
    ∀ i : Fin 44, 4 ≤ i.val →
      wordAt (keyExpand k) i =
        (let t := wordAt (keyExpand k) (wordBefore i 1)
         let u : KeyWord :=
           if i.val % 4 = 0 then
             #v[sbox t[1] ^^^ rcon ⟨i.val / 4, by omega⟩, sbox t[2], sbox t[3], sbox t[0]]
           else t
         Vector.ofFn fun j => u[j] ^^^ (wordAt (keyExpand k) (wordBefore i 4))[j])

/-- R122. EXPAND_KEY, from its acceptance at Idle with KEY written, when no other agent acts (log 9): BUSY stays 1 through the first 40 micro-steps; after
the 41st the command has ended, SCHED is KeyExpand(KEY), all its `written` bits are true, and nothing else of the core has
changed; of the model's own fields `injections` is 0 since the acceptance and `past` has the 41 micro-steps (log 16). -/
def Obligations.ExpandKeyWritesTheSchedule : Prop :=
  ∀ s : State, s.seq = .idle → s.turns = [] → s.keyWritten →
    (∀ n, n < 41 → ∃ t, Host.Core.run core n (s.started .expandKey) = .next t ∧ t.statusByte = 0x01#8) ∧
    Host.Core.run core 41 (s.started .expandKey) =
      .next { s with sched := keyExpand s.key,
                     written := { s.written with sched := Vector.replicate 176 true }, injections := 0,
                     past := ((.keyCopy :: ((List.finRange 44).drop 4).map .keyWord).map Config.RunEvent.core).reverse ++
                       s.past }

/-! ### Driver (43_driver) -/

/-- PRNG_SEED: `prng <- Prng.seed(SEED[0..3])`; one model fault per unwritten seed byte; nothing else changes (R156). -/
def Obligations.PrngSeedSeedsTheGenerator : Prop :=
  ∀ s : State, ∃ (t : State) (a : Vector Byte 4), exec .prngSeed s = .next t ∧ sees s.seed s.written.seed a ∧
    t = { s with prng := Config.prngSeed a, faults := s.faults ++ lostReads .seed 0 s.written.seed,
                 draws := t.draws }

/-- R156. SEED, from its acceptance at Idle with SEED written, in every build, when no other agent acts (log 9): one
micro-step, after which `prng = Prng.seed(SEED[0..3])` and nothing else of the core has changed; of the model's own fields `injections` is 0 since
the acceptance and `past` has the micro-step (log 16). -/
def Obligations.SeedCommandSeedsTheGenerator : Prop :=
  ∀ s : State, s.seq = .idle → s.turns = [] → s.seedWritten →
    (s.started .seed).statusByte = 0x01#8 ∧
    Host.Core.run core 1 (s.started .seed) =
      .next { s with prng := Config.prngSeed s.seed, injections := 0, past := .core .prngSeed :: s.past }

/-- R185. For every build, every draw and every state of the generator, a cipher command that the build has, accepted at
Idle with its inputs written, ends with the net result of its base list in STATE, however the turns of the host and the
sequencer interleave meanwhile (R76; log 9): the host may read, poll and write. Besides STATE only `prng`, the hidden buffers
and the model's own `draws` (log 2), `injections` and `past` (log 16) may change in the core, no mismatch is counted, and the
only model faults are those of the host's writes while busy (R57). The host's side moves only with the host's turns: with
none scheduled, no model fault is recorded and the host's program, the byte it read and those it bound stay (log 10). -/
def Obligations.CipherCommandsAreTransparent : Prop :=
  ∀ (s : State) (c : Command), c.isCipher = true → commandPresent s.config c = true → s.seq = .idle →
    s.onlyHostAndCore → s.inputsWritten c →
    ∃ (n : Nat) (t : State), Host.Core.run core n (s.started c) = .next t ∧
      (∀ m, m < n → ∃ u, Host.Core.run core m (s.started c) = .next u ∧ u.statusByte = 0x01#8) ∧
      t = { s with state := netEffect c s.state s.sched s.iv,
                   prng := t.prng, dfaCopy := t.dfaCopy, scrState := t.scrState, scrKey := t.scrKey,
                   draws := t.draws, injections := 0, past := t.past,
                   turns := t.turns, host := t.host, readData := t.readData, got := t.got, faults := t.faults } ∧
      (∃ l, t.faults = s.faults ++ l ∧ ∀ f ∈ l, ∃ a v, f = .hostWriteWhileBusy a v) ∧
      (.host ∉ s.turns → t.host = s.host ∧ t.readData = s.readData ∧ t.got = s.got ∧ t.faults = s.faults)

/-- The micro-step counts of R243 with the hardening flags 0, when no other agent acts (log 9): 40 for ECB, 41 for CBC;
BUSY is 1 until then. -/
def Obligations.BaseCipherStepCounts : Prop :=
  ∀ (s : State) (c : Command), c.isCipher = true → commandPresent s.config c = true → s.seq = .idle →
    s.turns = [] → s.config.rdelayEn = false → s.config.dummyEn = false → s.config.antidfaEn = false →
    let count := if usesIv c then 41 else 40
    (∀ m, m < count → ∃ u, Host.Core.run core m (s.started c) = .next u ∧ u.statusByte = 0x01#8) ∧
    ∃ t, Host.Core.run core count (s.started c) = .next t ∧ t.seq = .idle

/-- Decryption undoes encryption and encryption decryption, for every block and every 176-byte schedule, whether or not
it came from EXPAND_KEY; and so do the CBC forms with the same IV (R152, R154, R158). -/
def Obligations.DecryptionInvertsEncryption : Prop :=
  ∀ (x iv : Block) (r : Sched),
    dec (enc x r) r = x ∧ enc (dec x r) r = x ∧
    netEffect .cbcDec (netEffect .cbcEnc x r iv) r iv = x ∧ netEffect .cbcEnc (netEffect .cbcDec x r iv) r iv = x

/-- No turn of the sequencer writes IV, KEY or SEED (R23, R24, R26), and during a cipher command none writes SCHED
(R25). -/
def Obligations.SequencerLeavesTheHostsBuffers : Prop :=
  ∀ s t : State, s.nextTurn = .core → step s = .next t →
    (t.iv = s.iv ∧ t.key = s.key ∧ t.seed = s.seed ∧ t.written.iv = s.written.iv ∧
      t.written.key = s.written.key ∧ t.written.seed = s.written.seed) ∧
    (∀ (c : Command) (rest : List Instr), s.seqOk = true → s.seq = .running c rest → c.isCipher = true →
      t.sched = s.sched ∧ t.written.sched = s.written.sched)

/-! ### Countermeasures (44_countermeasures) -/

/-- R171. IDLE changes no storage element. -/
def Obligations.IdleChangesNothing : Prop := ∀ s : State, exec .idle s = .next s

/-- R172. DELAY c, while a list is running: replaced by `t` IDLE steps, `t` between the class's bounds; besides the list
only `prng` changes. The bounds are ordered as R172 says. -/
def Obligations.DelayExpandsToIdleTicks : Prop :=
  (∀ (s : State) (c : Command) (rest : List Instr) (k : DelayClass), s.seq = .running c rest →
    ∃ (n : Nat) (t : State), Config.delayMin k ≤ n ∧ n ≤ Config.delayMax k ∧ exec (.delay k) s = .next t ∧
      t = { s with seq := .running c (List.replicate n .idle ++ rest), prng := t.prng, draws := t.draws }) ∧
  (∀ k : DelayClass, Config.delayMin k ≤ Config.delayMax k) ∧
  Config.delayMax .short ≤ Config.delayMax .long

/-- R175. DECOY_GROUP K X, n, while a list is running: replaced by 1 to 3 invocations, exactly the one at `pos` the real
one, each other a DECOY_FILL and the kind on the scratch buffers; besides the list only `prng` changes. -/
def Obligations.DecoyGroupHasOneRealInvocation : Prop :=
  ∀ (s : State) (c : Command) (rest : List Instr) (kind : RoundKind) (x : Target) (n : Fin 11),
    s.seq = .running c rest →
    ∃ (cnt pos : Nat) (t : State), 1 ≤ cnt ∧ cnt ≤ 3 ∧ pos < cnt ∧ exec (.decoyGroup kind x n) s = .next t ∧
      t = { s with
            seq := .running c
              (((List.range cnt).flatMap fun j =>
                if j = pos then [roundWord kind x (.round n)]
                else [.decoyFill, roundWord kind .scrState .scratch]) ++ rest),
            prng := t.prng, draws := t.draws }

/-- R176. DECOY_FILL, in every state: SCR_STATE becomes 16 fresh draws, SCR_KEY the next 16, and `prng` one more; nothing
else changes. (Draws are numbered from the model's count `draws` on, log 2; their order is log 24.) -/
def Obligations.DecoyFillFillsTheScratchBuffers : Prop :=
  ∀ s : State, exec .decoyFill s = .next { s with
    scrState := Vector.ofFn fun j => Config.freeByte (s.draws + j.val)
    scrKey := Vector.ofFn fun j => Config.freeByte (s.draws + 16 + j.val)
    prng := Config.freePrng (s.draws + 32), draws := s.draws + 33 }

/-- R177. A decoy invocation depends only on SCR_STATE and SCR_KEY and writes only SCR_STATE; and a call group, its real
invocation at any position, has on a real target the effect of the bare invocation. -/
def Obligations.DecoysTouchOnlyTheScratchBuffers : Prop :=
  (∀ (s : State) (kind : RoundKind), ∃ b : Block,
    execAll (roundPasses kind .scrState .scratch) s = .next { s with scrState := b } ∧
    ∀ u : State, u.scrState = s.scrState → u.scrKey = s.scrKey →
      execAll (roundPasses kind .scrState .scratch) u = .next { u with scrState := b }) ∧
  (∀ (s : State) (kind : RoundKind) (x : Target) (n : Fin 11) (cnt pos : Nat), pos < cnt → x ≠ .scrState →
    s.targetReady x → s.keyReady (.round n) →
    ∃ t u : State,
      execAll ((List.range cnt).flatMap fun j =>
        if j = pos then roundPasses kind x (.round n)
        else .decoyFill :: roundPasses kind .scrState .scratch) s = .next t ∧
      execAll (roundPasses kind x (.round n)) s = .next u ∧
      t = { u with scrState := t.scrState, scrKey := t.scrKey, prng := t.prng, draws := t.draws })

/-- R181. DUAL under a cipher command: replaced by the snapshot, the body on STATE, the delay between the passes, the
body on DFA_COPY, and the comparison (the body is the running command's: log 18). Under another command there is
no body, and it stops; at Idle there is no list to expand in, and DUAL and every other macro stops (log 17). -/
def Obligations.DualRunsTheBodyTwice : Prop :=
  ∀ s : State,
    (∀ (c : Command) (rest : List Instr), s.seq = .running c rest → c.isCipher = true →
      exec .dual s = .next { s with
        seq := .running c
          ([.dfaSnapshot] ++ cipherBody s.config c .state ++ [.delay .dualComputation] ++
            cipherBody s.config c .dfaCopy ++ [.dfaCompare] ++ rest) }) ∧
    (s.seq = .idle →
      exec .dual s = .refused .macroOutsideList ∧
      (∀ (kind : RoundKind) (x : Target) (k : KeySel), exec (roundWord kind x k) s = .refused .macroOutsideList) ∧
      (∀ k : DelayClass, exec (.delay k) s = .refused .macroOutsideList) ∧
      (∀ (kind : RoundKind) (x : Target) (n : Fin 11),
        exec (.decoyGroup kind x n) s = .refused .macroOutsideList)) ∧
    (∀ (c : Command) (rest : List Instr), s.seq = .running c rest → c.isCipher = false →
      exec .dual s = .refused .dualWithoutBody)

/-- R181. DFA_SNAPSHOT: DFA_COPY takes STATE; one model fault per unwritten byte (R181, R205); nothing else changes. -/
def Obligations.SnapshotCopiesState : Prop :=
  ∀ s : State, ∃ (t : State) (a : Block), exec .dfaSnapshot s = .next t ∧ s.seesTarget .state a ∧
    t = { s with dfaCopy := a, faults := s.faults ++ lostReads .state 0 s.written.state, draws := t.draws }

/-- R182. DFA_COMPARE: on a match STATE stays; on a mismatch all 16 bytes of STATE become 0x00 in the same step and the
ghost `mismatch` counts one. DFA_COPY is not cleared. One model fault per unwritten byte of STATE, where R182 says
`Exceptions: none` (R205; log 14); nothing else changes. -/
def Obligations.CompareZeroesOnMismatch : Prop :=
  ∀ s : State, ∃ (t : State) (a : Block), exec .dfaCompare s = .next t ∧ s.seesTarget .state a ∧
    (a = s.dfaCopy →
      t = { s with faults := s.faults ++ lostReads .state 0 s.written.state, draws := t.draws }) ∧
    (a ≠ s.dfaCopy →
      t = { s with state := Vector.replicate 16 0x00#8,
                   written := { s.written with state := Vector.replicate 16 true },
                   mismatch := s.mismatch + 1,
                   faults := s.faults ++ lostReads .state 0 s.written.state, draws := t.draws })

/-- A mismatch is counted only by a DFA_COMPARE the sequencer performs, only in a build with ANTIDFA_EN, and then STATE
is all zero (R201). -/
def Obligations.MismatchComesOnlyFromCompare : Prop :=
  ∀ s t : State, s.seqOk = true → step s = .next t → t.mismatch ≠ s.mismatch →
    s.nextTurn = .core ∧ (∃ (c : Command) (rest : List Instr), s.seq = .running c (.dfaCompare :: rest)) ∧
      s.config.antidfaEn = true ∧ t.state = Vector.replicate 16 0x00#8

/-- One corruption of one byte of STATE or DFA_COPY, to another value, after the snapshot and before the comparison of a
cipher command, in any build with ANTIDFA_EN, whatever the draws and however the turns of the host and the sequencer
interleave (R76; log 9): the command ends with STATE all zero and one more mismatch counted (R183, its detected case). -/
def Obligations.SingleCorruptionIsDetected : Prop :=
  ∀ (s : State) (c : Command), c.isCipher = true → commandPresent s.config c = true →
    s.config.antidfaEn = true → s.seq = .idle → s.onlyHostAndCore → s.inputsWritten c →
    ∀ (n : Nat) (t : State) (rest : List Instr),
      (∀ m, m ≤ n → ∃ u, Host.Core.run core m (s.started c) = .next u ∧ u.busy = true) →
      Host.Core.run core n (s.started c) = .next t →
      t.seq = .running c rest → .dfaCompare ∈ rest → .dfaSnapshot ∉ rest →
      ∀ (b : HwByte) (v : Byte), (∃ j, b = .data (.state j) ∨ b = .dfaCopy j) → v ≠ t.hwByteAt b →
        ∃ (m : Nat) (u : State), Host.Core.run core m (t.corrupt b v) = .next u ∧ u.seq = .idle ∧
          u.state = Vector.replicate 16 0x00#8 ∧ u.mismatch = s.mismatch + 1

/-- The other detected case of R183, in any build with ANTIDFA_EN, whatever the draws and however the turns of the host and
the sequencer interleave (R76; log 9): one byte of SCHED, or of IV, changed to another value after the first pass (on STATE)
has read it and before the second (on DFA_COPY) has, so that no entry left reads it for STATE and one left reads it for
DFA_COPY. The command ends with STATE all zero and one more mismatch counted. -/
def Obligations.CorruptionBetweenTheReadsIsDetected : Prop :=
  ∀ (s : State) (c : Command), c.isCipher = true → commandPresent s.config c = true →
    s.config.antidfaEn = true → s.seq = .idle → s.onlyHostAndCore → s.inputsWritten c →
    ∀ (n : Nat) (t : State) (rest : List Instr),
      (∀ m, m ≤ n → ∃ u, Host.Core.run core m (s.started c) = .next u ∧ u.busy = true) →
      Host.Core.run core n (s.started c) = .next t → t.seq = .running c rest →
      ∀ (b : DataByte) (v : Byte),
        ((∃ p : Fin 176, b = .sched p ∧ (∀ u ∈ rest, readsSched .state p u = false) ∧
            ∃ u ∈ rest, readsSched .dfaCopy p u = true) ∨
          (∃ j : Fin 16, b = .iv j ∧ .xorIv .state ∉ rest ∧ .xorIv .dfaCopy ∈ rest)) →
        v ≠ t.byteAt b →
        ∃ (m : Nat) (u : State), Host.Core.run core m (t.corrupt (.data b) v) = .next u ∧ u.seq = .idle ∧
          u.state = Vector.replicate 16 0x00#8 ∧ u.mismatch = s.mismatch + 1

/-! ### Model faults (60_exceptions) -/

/-- R205. An instruction records exactly one model fault per unwritten byte its rule reads, in increasing (E, j) order,
or the one of a host write while busy; no other instruction records any. That micro-steps whose own rules say `Exceptions:
none` record theirs too is the model's reading (log 14). -/
def Obligations.ExactlyTheGivenModelFaultsAreRecorded : Prop :=
  (∀ (i : Instr) (s t : State), exec i s = .next t → t.faults = s.faults ++ s.recorded i) ∧
  (∀ (i : Instr) (s : State), i.wf = true → (s.recorded i).Pairwise faultBefore)

/-! ### Leaf functions (40_gf_sbox, 42_round_transform R137) -/

/-- The functions exercised by themselves: the value stands on `fnOut` and nothing else changes (R80; `fnOut` is the
model's own, log 11). -/
def Obligations.FunctionsGiveTheirValue : Prop :=
  ∀ (s : State) (a b p : Byte),
    exec (.sboxLookup a) s = .next { s with fnOut := sbox a } ∧
    exec (.invSboxLookup a) s = .next { s with fnOut := invSbox a } ∧
    exec (.gfMul a b p) s = .next { s with fnOut := gfMul a b p }

/-- R101. For every `poly`, GF_MUL is the product of its operands reduced modulo `x^8 + poly(x)`: it differs from the
product by a multiple of that polynomial, and has degree below 8. -/
def Obligations.GfMulIsTheReducedProduct : Prop :=
  ∀ a b poly : Byte, ∃ q : Byte,
    clmul a (b.setWidth 16) = clmul q (0x100#16 ^^^ poly.setWidth 16) ^^^ (gfMul a b poly).setWidth 16

/-- R103. The laws of GF_MUL: commutative and with identity 1 for 0x1b, distributive and doubling for every `poly`, and
exactly one inverse of every nonzero byte for 0x1b. -/
def Obligations.GfMulLaws : Prop :=
  (∀ a b : Byte, gfMul a b 0x1b = gfMul b a 0x1b) ∧
  (∀ b : Byte, gfMul 1 b 0x1b = b) ∧
  (∀ a b c p : Byte, gfMul a (b ^^^ c) p = gfMul a b p ^^^ gfMul a c p) ∧
  (∀ a p : Byte, gfMul 0x02 a p = (a <<< 1) ^^^ (if a.getLsbD 7 then p else 0x00)) ∧
  (∀ a : Byte, a ≠ 0 → ∃ b : Byte, gfMul a b 0x1b = 0x01 ∧ ∀ c : Byte, gfMul a c 0x1b = 0x01 → c = b)

/-- R106. Each substitution table undoes the other. -/
def Obligations.TablesAreInverse : Prop :=
  (∀ b : Byte, invSbox (sbox b) = b) ∧ (∀ b : Byte, sbox (invSbox b) = b)

/-- The generator formula of R108 gives the table of R104: with `y` the inverse of `x` (0 for 0),
`SBOX[x] = y ^ rotl8(y,1) ^ rotl8(y,2) ^ rotl8(y,3) ^ rotl8(y,4) ^ 0x63`; and the round constants double (R109). -/
def Obligations.TablesMatchTheirGenerators : Prop :=
  (∀ x y : Byte, (x = 0 ∧ y = 0 ∨ gfMul x y 0x1b = 0x01) →
    sbox x = y ^^^ rotl8 y 1 ^^^ rotl8 y 2 ^^^ rotl8 y 3 ^^^ rotl8 y 4 ^^^ 0x63) ∧
  rcon 1 = 0x01 ∧
  (∀ j : Fin 12, ∀ _ : 1 ≤ j.val ∧ j.val ≤ 9, rcon ⟨j.val + 1, by omega⟩ = gfMul 0x02 (rcon j) 0x1b)

/-- R137. The laws of the passes: the inverse pairs, both ways round, so every pass is a bijection; ADD_ROUND_KEY undoes
itself; the byte substitutions commute with the row rotations. -/
def Obligations.PassLaws : Prop :=
  (∀ x : Block, invSubBytes (subBytes x) = x ∧ subBytes (invSubBytes x) = x) ∧
  (∀ x : Block, invShiftRows (shiftRows x) = x ∧ shiftRows (invShiftRows x) = x) ∧
  (∀ x : Block, invMixColumns (mixColumns x) = x ∧ mixColumns (invMixColumns x) = x) ∧
  (∀ x k : Block, xorBlock (xorBlock x k) k = x) ∧
  (∀ x : Block, subBytes (shiftRows x) = shiftRows (subBytes x)) ∧
  (∀ x : Block, invSubBytes (invShiftRows x) = invShiftRows (invSubBytes x))

end
end

