-- ==== Sys2Proof/Laws/State.lean ====
section
/-!
SUPPORT. What each named update does to each field of State: one lemma per field per update, so that no proof unfolds
an update.
-/
namespace Sys2Proof.Machine.State

/-! ### putState -/

@[simp] theorem putState_state (s : State) (b : Block) : (s.putState b).state = b := rfl
@[simp] theorem putState_iv (s : State) (b : Block) : (s.putState b).iv = s.iv := rfl
@[simp] theorem putState_key (s : State) (b : Block) : (s.putState b).key = s.key := rfl
@[simp] theorem putState_sched (s : State) (b : Block) : (s.putState b).sched = s.sched := rfl
@[simp] theorem putState_seed (s : State) (b : Block) : (s.putState b).seed = s.seed := rfl
@[simp] theorem putState_config (s : State) (b : Block) : (s.putState b).config = s.config := rfl
@[simp] theorem putState_prng (s : State) (b : Block) : (s.putState b).prng = s.prng := rfl
@[simp] theorem putState_dfaCopy (s : State) (b : Block) : (s.putState b).dfaCopy = s.dfaCopy := rfl
@[simp] theorem putState_scrState (s : State) (b : Block) : (s.putState b).scrState = s.scrState := rfl
@[simp] theorem putState_scrKey (s : State) (b : Block) : (s.putState b).scrKey = s.scrKey := rfl
@[simp] theorem putState_seq (s : State) (b : Block) : (s.putState b).seq = s.seq := rfl
@[simp] theorem putState_written (s : State) (b : Block) : (s.putState b).written = { s.written with state := Vector.replicate 16 true } := rfl
@[simp] theorem putState_faults (s : State) (b : Block) : (s.putState b).faults = s.faults := rfl
@[simp] theorem putState_refused (s : State) (b : Block) : (s.putState b).refused = s.refused := rfl
@[simp] theorem putState_mismatch (s : State) (b : Block) : (s.putState b).mismatch = s.mismatch := rfl
@[simp] theorem putState_draws (s : State) (b : Block) : (s.putState b).draws = s.draws := rfl
@[simp] theorem putState_readData (s : State) (b : Block) : (s.putState b).readData = s.readData := rfl
@[simp] theorem putState_fnOut (s : State) (b : Block) : (s.putState b).fnOut = s.fnOut := rfl
@[simp] theorem putState_host (s : State) (b : Block) : (s.putState b).host = s.host := rfl
@[simp] theorem putState_got (s : State) (b : Block) : (s.putState b).got = s.got := rfl
@[simp] theorem putState_turns (s : State) (b : Block) : (s.putState b).turns = s.turns := rfl
@[simp] theorem putState_faultModel (s : State) (b : Block) : (s.putState b).faultModel = s.faultModel := rfl
@[simp] theorem putState_injections (s : State) (b : Block) : (s.putState b).injections = s.injections := rfl
@[simp] theorem putState_past (s : State) (b : Block) : (s.putState b).past = s.past := rfl

/-! ### putDfaCopy -/

@[simp] theorem putDfaCopy_state (s : State) (b : Block) : (s.putDfaCopy b).state = s.state := rfl
@[simp] theorem putDfaCopy_iv (s : State) (b : Block) : (s.putDfaCopy b).iv = s.iv := rfl
@[simp] theorem putDfaCopy_key (s : State) (b : Block) : (s.putDfaCopy b).key = s.key := rfl
@[simp] theorem putDfaCopy_sched (s : State) (b : Block) : (s.putDfaCopy b).sched = s.sched := rfl
@[simp] theorem putDfaCopy_seed (s : State) (b : Block) : (s.putDfaCopy b).seed = s.seed := rfl
@[simp] theorem putDfaCopy_config (s : State) (b : Block) : (s.putDfaCopy b).config = s.config := rfl
@[simp] theorem putDfaCopy_prng (s : State) (b : Block) : (s.putDfaCopy b).prng = s.prng := rfl
@[simp] theorem putDfaCopy_dfaCopy (s : State) (b : Block) : (s.putDfaCopy b).dfaCopy = b := rfl
@[simp] theorem putDfaCopy_scrState (s : State) (b : Block) : (s.putDfaCopy b).scrState = s.scrState := rfl
@[simp] theorem putDfaCopy_scrKey (s : State) (b : Block) : (s.putDfaCopy b).scrKey = s.scrKey := rfl
@[simp] theorem putDfaCopy_seq (s : State) (b : Block) : (s.putDfaCopy b).seq = s.seq := rfl
@[simp] theorem putDfaCopy_written (s : State) (b : Block) : (s.putDfaCopy b).written = s.written := rfl
@[simp] theorem putDfaCopy_faults (s : State) (b : Block) : (s.putDfaCopy b).faults = s.faults := rfl
@[simp] theorem putDfaCopy_refused (s : State) (b : Block) : (s.putDfaCopy b).refused = s.refused := rfl
@[simp] theorem putDfaCopy_mismatch (s : State) (b : Block) : (s.putDfaCopy b).mismatch = s.mismatch := rfl
@[simp] theorem putDfaCopy_draws (s : State) (b : Block) : (s.putDfaCopy b).draws = s.draws := rfl
@[simp] theorem putDfaCopy_readData (s : State) (b : Block) : (s.putDfaCopy b).readData = s.readData := rfl
@[simp] theorem putDfaCopy_fnOut (s : State) (b : Block) : (s.putDfaCopy b).fnOut = s.fnOut := rfl
@[simp] theorem putDfaCopy_host (s : State) (b : Block) : (s.putDfaCopy b).host = s.host := rfl
@[simp] theorem putDfaCopy_got (s : State) (b : Block) : (s.putDfaCopy b).got = s.got := rfl
@[simp] theorem putDfaCopy_turns (s : State) (b : Block) : (s.putDfaCopy b).turns = s.turns := rfl
@[simp] theorem putDfaCopy_faultModel (s : State) (b : Block) : (s.putDfaCopy b).faultModel = s.faultModel := rfl
@[simp] theorem putDfaCopy_injections (s : State) (b : Block) : (s.putDfaCopy b).injections = s.injections := rfl
@[simp] theorem putDfaCopy_past (s : State) (b : Block) : (s.putDfaCopy b).past = s.past := rfl

/-! ### putScrState -/

@[simp] theorem putScrState_state (s : State) (b : Block) : (s.putScrState b).state = s.state := rfl
@[simp] theorem putScrState_iv (s : State) (b : Block) : (s.putScrState b).iv = s.iv := rfl
@[simp] theorem putScrState_key (s : State) (b : Block) : (s.putScrState b).key = s.key := rfl
@[simp] theorem putScrState_sched (s : State) (b : Block) : (s.putScrState b).sched = s.sched := rfl
@[simp] theorem putScrState_seed (s : State) (b : Block) : (s.putScrState b).seed = s.seed := rfl
@[simp] theorem putScrState_config (s : State) (b : Block) : (s.putScrState b).config = s.config := rfl
@[simp] theorem putScrState_prng (s : State) (b : Block) : (s.putScrState b).prng = s.prng := rfl
@[simp] theorem putScrState_dfaCopy (s : State) (b : Block) : (s.putScrState b).dfaCopy = s.dfaCopy := rfl
@[simp] theorem putScrState_scrState (s : State) (b : Block) : (s.putScrState b).scrState = b := rfl
@[simp] theorem putScrState_scrKey (s : State) (b : Block) : (s.putScrState b).scrKey = s.scrKey := rfl
@[simp] theorem putScrState_seq (s : State) (b : Block) : (s.putScrState b).seq = s.seq := rfl
@[simp] theorem putScrState_written (s : State) (b : Block) : (s.putScrState b).written = s.written := rfl
@[simp] theorem putScrState_faults (s : State) (b : Block) : (s.putScrState b).faults = s.faults := rfl
@[simp] theorem putScrState_refused (s : State) (b : Block) : (s.putScrState b).refused = s.refused := rfl
@[simp] theorem putScrState_mismatch (s : State) (b : Block) : (s.putScrState b).mismatch = s.mismatch := rfl
@[simp] theorem putScrState_draws (s : State) (b : Block) : (s.putScrState b).draws = s.draws := rfl
@[simp] theorem putScrState_readData (s : State) (b : Block) : (s.putScrState b).readData = s.readData := rfl
@[simp] theorem putScrState_fnOut (s : State) (b : Block) : (s.putScrState b).fnOut = s.fnOut := rfl
@[simp] theorem putScrState_host (s : State) (b : Block) : (s.putScrState b).host = s.host := rfl
@[simp] theorem putScrState_got (s : State) (b : Block) : (s.putScrState b).got = s.got := rfl
@[simp] theorem putScrState_turns (s : State) (b : Block) : (s.putScrState b).turns = s.turns := rfl
@[simp] theorem putScrState_faultModel (s : State) (b : Block) : (s.putScrState b).faultModel = s.faultModel := rfl
@[simp] theorem putScrState_injections (s : State) (b : Block) : (s.putScrState b).injections = s.injections := rfl
@[simp] theorem putScrState_past (s : State) (b : Block) : (s.putScrState b).past = s.past := rfl

/-! ### putScrKey -/

@[simp] theorem putScrKey_state (s : State) (b : Block) : (s.putScrKey b).state = s.state := rfl
@[simp] theorem putScrKey_iv (s : State) (b : Block) : (s.putScrKey b).iv = s.iv := rfl
@[simp] theorem putScrKey_key (s : State) (b : Block) : (s.putScrKey b).key = s.key := rfl
@[simp] theorem putScrKey_sched (s : State) (b : Block) : (s.putScrKey b).sched = s.sched := rfl
@[simp] theorem putScrKey_seed (s : State) (b : Block) : (s.putScrKey b).seed = s.seed := rfl
@[simp] theorem putScrKey_config (s : State) (b : Block) : (s.putScrKey b).config = s.config := rfl
@[simp] theorem putScrKey_prng (s : State) (b : Block) : (s.putScrKey b).prng = s.prng := rfl
@[simp] theorem putScrKey_dfaCopy (s : State) (b : Block) : (s.putScrKey b).dfaCopy = s.dfaCopy := rfl
@[simp] theorem putScrKey_scrState (s : State) (b : Block) : (s.putScrKey b).scrState = s.scrState := rfl
@[simp] theorem putScrKey_scrKey (s : State) (b : Block) : (s.putScrKey b).scrKey = b := rfl
@[simp] theorem putScrKey_seq (s : State) (b : Block) : (s.putScrKey b).seq = s.seq := rfl
@[simp] theorem putScrKey_written (s : State) (b : Block) : (s.putScrKey b).written = s.written := rfl
@[simp] theorem putScrKey_faults (s : State) (b : Block) : (s.putScrKey b).faults = s.faults := rfl
@[simp] theorem putScrKey_refused (s : State) (b : Block) : (s.putScrKey b).refused = s.refused := rfl
@[simp] theorem putScrKey_mismatch (s : State) (b : Block) : (s.putScrKey b).mismatch = s.mismatch := rfl
@[simp] theorem putScrKey_draws (s : State) (b : Block) : (s.putScrKey b).draws = s.draws := rfl
@[simp] theorem putScrKey_readData (s : State) (b : Block) : (s.putScrKey b).readData = s.readData := rfl
@[simp] theorem putScrKey_fnOut (s : State) (b : Block) : (s.putScrKey b).fnOut = s.fnOut := rfl
@[simp] theorem putScrKey_host (s : State) (b : Block) : (s.putScrKey b).host = s.host := rfl
@[simp] theorem putScrKey_got (s : State) (b : Block) : (s.putScrKey b).got = s.got := rfl
@[simp] theorem putScrKey_turns (s : State) (b : Block) : (s.putScrKey b).turns = s.turns := rfl
@[simp] theorem putScrKey_faultModel (s : State) (b : Block) : (s.putScrKey b).faultModel = s.faultModel := rfl
@[simp] theorem putScrKey_injections (s : State) (b : Block) : (s.putScrKey b).injections = s.injections := rfl
@[simp] theorem putScrKey_past (s : State) (b : Block) : (s.putScrKey b).past = s.past := rfl

/-! ### putSched -/

@[simp] theorem putSched_state (s : State) (r : Sched) (w : Vector Bool 176) : (s.putSched r w).state = s.state := rfl
@[simp] theorem putSched_iv (s : State) (r : Sched) (w : Vector Bool 176) : (s.putSched r w).iv = s.iv := rfl
@[simp] theorem putSched_key (s : State) (r : Sched) (w : Vector Bool 176) : (s.putSched r w).key = s.key := rfl
@[simp] theorem putSched_sched (s : State) (r : Sched) (w : Vector Bool 176) : (s.putSched r w).sched = r := rfl
@[simp] theorem putSched_seed (s : State) (r : Sched) (w : Vector Bool 176) : (s.putSched r w).seed = s.seed := rfl
@[simp] theorem putSched_config (s : State) (r : Sched) (w : Vector Bool 176) : (s.putSched r w).config = s.config := rfl
@[simp] theorem putSched_prng (s : State) (r : Sched) (w : Vector Bool 176) : (s.putSched r w).prng = s.prng := rfl
@[simp] theorem putSched_dfaCopy (s : State) (r : Sched) (w : Vector Bool 176) : (s.putSched r w).dfaCopy = s.dfaCopy := rfl
@[simp] theorem putSched_scrState (s : State) (r : Sched) (w : Vector Bool 176) : (s.putSched r w).scrState = s.scrState := rfl
@[simp] theorem putSched_scrKey (s : State) (r : Sched) (w : Vector Bool 176) : (s.putSched r w).scrKey = s.scrKey := rfl
@[simp] theorem putSched_seq (s : State) (r : Sched) (w : Vector Bool 176) : (s.putSched r w).seq = s.seq := rfl
@[simp] theorem putSched_written (s : State) (r : Sched) (w : Vector Bool 176) : (s.putSched r w).written = { s.written with sched := w } := rfl
@[simp] theorem putSched_faults (s : State) (r : Sched) (w : Vector Bool 176) : (s.putSched r w).faults = s.faults := rfl
@[simp] theorem putSched_refused (s : State) (r : Sched) (w : Vector Bool 176) : (s.putSched r w).refused = s.refused := rfl
@[simp] theorem putSched_mismatch (s : State) (r : Sched) (w : Vector Bool 176) : (s.putSched r w).mismatch = s.mismatch := rfl
@[simp] theorem putSched_draws (s : State) (r : Sched) (w : Vector Bool 176) : (s.putSched r w).draws = s.draws := rfl
@[simp] theorem putSched_readData (s : State) (r : Sched) (w : Vector Bool 176) : (s.putSched r w).readData = s.readData := rfl
@[simp] theorem putSched_fnOut (s : State) (r : Sched) (w : Vector Bool 176) : (s.putSched r w).fnOut = s.fnOut := rfl
@[simp] theorem putSched_host (s : State) (r : Sched) (w : Vector Bool 176) : (s.putSched r w).host = s.host := rfl
@[simp] theorem putSched_got (s : State) (r : Sched) (w : Vector Bool 176) : (s.putSched r w).got = s.got := rfl
@[simp] theorem putSched_turns (s : State) (r : Sched) (w : Vector Bool 176) : (s.putSched r w).turns = s.turns := rfl
@[simp] theorem putSched_faultModel (s : State) (r : Sched) (w : Vector Bool 176) : (s.putSched r w).faultModel = s.faultModel := rfl
@[simp] theorem putSched_injections (s : State) (r : Sched) (w : Vector Bool 176) : (s.putSched r w).injections = s.injections := rfl
@[simp] theorem putSched_past (s : State) (r : Sched) (w : Vector Bool 176) : (s.putSched r w).past = s.past := rfl

/-! ### putSeq -/

@[simp] theorem putSeq_state (s : State) (q : Seq) : (s.putSeq q).state = s.state := rfl
@[simp] theorem putSeq_iv (s : State) (q : Seq) : (s.putSeq q).iv = s.iv := rfl
@[simp] theorem putSeq_key (s : State) (q : Seq) : (s.putSeq q).key = s.key := rfl
@[simp] theorem putSeq_sched (s : State) (q : Seq) : (s.putSeq q).sched = s.sched := rfl
@[simp] theorem putSeq_seed (s : State) (q : Seq) : (s.putSeq q).seed = s.seed := rfl
@[simp] theorem putSeq_config (s : State) (q : Seq) : (s.putSeq q).config = s.config := rfl
@[simp] theorem putSeq_prng (s : State) (q : Seq) : (s.putSeq q).prng = s.prng := rfl
@[simp] theorem putSeq_dfaCopy (s : State) (q : Seq) : (s.putSeq q).dfaCopy = s.dfaCopy := rfl
@[simp] theorem putSeq_scrState (s : State) (q : Seq) : (s.putSeq q).scrState = s.scrState := rfl
@[simp] theorem putSeq_scrKey (s : State) (q : Seq) : (s.putSeq q).scrKey = s.scrKey := rfl
@[simp] theorem putSeq_seq (s : State) (q : Seq) : (s.putSeq q).seq = q := rfl
@[simp] theorem putSeq_written (s : State) (q : Seq) : (s.putSeq q).written = s.written := rfl
@[simp] theorem putSeq_faults (s : State) (q : Seq) : (s.putSeq q).faults = s.faults := rfl
@[simp] theorem putSeq_refused (s : State) (q : Seq) : (s.putSeq q).refused = s.refused := rfl
@[simp] theorem putSeq_mismatch (s : State) (q : Seq) : (s.putSeq q).mismatch = s.mismatch := rfl
@[simp] theorem putSeq_draws (s : State) (q : Seq) : (s.putSeq q).draws = s.draws := rfl
@[simp] theorem putSeq_readData (s : State) (q : Seq) : (s.putSeq q).readData = s.readData := rfl
@[simp] theorem putSeq_fnOut (s : State) (q : Seq) : (s.putSeq q).fnOut = s.fnOut := rfl
@[simp] theorem putSeq_host (s : State) (q : Seq) : (s.putSeq q).host = s.host := rfl
@[simp] theorem putSeq_got (s : State) (q : Seq) : (s.putSeq q).got = s.got := rfl
@[simp] theorem putSeq_turns (s : State) (q : Seq) : (s.putSeq q).turns = s.turns := rfl
@[simp] theorem putSeq_faultModel (s : State) (q : Seq) : (s.putSeq q).faultModel = s.faultModel := rfl
@[simp] theorem putSeq_injections (s : State) (q : Seq) : (s.putSeq q).injections = s.injections := rfl
@[simp] theorem putSeq_past (s : State) (q : Seq) : (s.putSeq q).past = s.past := rfl

/-! ### putPrng -/

@[simp] theorem putPrng_state (s : State) (p : Config.PrngState) : (s.putPrng p).state = s.state := rfl
@[simp] theorem putPrng_iv (s : State) (p : Config.PrngState) : (s.putPrng p).iv = s.iv := rfl
@[simp] theorem putPrng_key (s : State) (p : Config.PrngState) : (s.putPrng p).key = s.key := rfl
@[simp] theorem putPrng_sched (s : State) (p : Config.PrngState) : (s.putPrng p).sched = s.sched := rfl
@[simp] theorem putPrng_seed (s : State) (p : Config.PrngState) : (s.putPrng p).seed = s.seed := rfl
@[simp] theorem putPrng_config (s : State) (p : Config.PrngState) : (s.putPrng p).config = s.config := rfl
@[simp] theorem putPrng_prng (s : State) (p : Config.PrngState) : (s.putPrng p).prng = p := rfl
@[simp] theorem putPrng_dfaCopy (s : State) (p : Config.PrngState) : (s.putPrng p).dfaCopy = s.dfaCopy := rfl
@[simp] theorem putPrng_scrState (s : State) (p : Config.PrngState) : (s.putPrng p).scrState = s.scrState := rfl
@[simp] theorem putPrng_scrKey (s : State) (p : Config.PrngState) : (s.putPrng p).scrKey = s.scrKey := rfl
@[simp] theorem putPrng_seq (s : State) (p : Config.PrngState) : (s.putPrng p).seq = s.seq := rfl
@[simp] theorem putPrng_written (s : State) (p : Config.PrngState) : (s.putPrng p).written = s.written := rfl
@[simp] theorem putPrng_faults (s : State) (p : Config.PrngState) : (s.putPrng p).faults = s.faults := rfl
@[simp] theorem putPrng_refused (s : State) (p : Config.PrngState) : (s.putPrng p).refused = s.refused := rfl
@[simp] theorem putPrng_mismatch (s : State) (p : Config.PrngState) : (s.putPrng p).mismatch = s.mismatch := rfl
@[simp] theorem putPrng_draws (s : State) (p : Config.PrngState) : (s.putPrng p).draws = s.draws := rfl
@[simp] theorem putPrng_readData (s : State) (p : Config.PrngState) : (s.putPrng p).readData = s.readData := rfl
@[simp] theorem putPrng_fnOut (s : State) (p : Config.PrngState) : (s.putPrng p).fnOut = s.fnOut := rfl
@[simp] theorem putPrng_host (s : State) (p : Config.PrngState) : (s.putPrng p).host = s.host := rfl
@[simp] theorem putPrng_got (s : State) (p : Config.PrngState) : (s.putPrng p).got = s.got := rfl
@[simp] theorem putPrng_turns (s : State) (p : Config.PrngState) : (s.putPrng p).turns = s.turns := rfl
@[simp] theorem putPrng_faultModel (s : State) (p : Config.PrngState) : (s.putPrng p).faultModel = s.faultModel := rfl
@[simp] theorem putPrng_injections (s : State) (p : Config.PrngState) : (s.putPrng p).injections = s.injections := rfl
@[simp] theorem putPrng_past (s : State) (p : Config.PrngState) : (s.putPrng p).past = s.past := rfl

/-! ### countMismatch -/

@[simp] theorem countMismatch_state (s : State) : (s.countMismatch).state = s.state := rfl
@[simp] theorem countMismatch_iv (s : State) : (s.countMismatch).iv = s.iv := rfl
@[simp] theorem countMismatch_key (s : State) : (s.countMismatch).key = s.key := rfl
@[simp] theorem countMismatch_sched (s : State) : (s.countMismatch).sched = s.sched := rfl
@[simp] theorem countMismatch_seed (s : State) : (s.countMismatch).seed = s.seed := rfl
@[simp] theorem countMismatch_config (s : State) : (s.countMismatch).config = s.config := rfl
@[simp] theorem countMismatch_prng (s : State) : (s.countMismatch).prng = s.prng := rfl
@[simp] theorem countMismatch_dfaCopy (s : State) : (s.countMismatch).dfaCopy = s.dfaCopy := rfl
@[simp] theorem countMismatch_scrState (s : State) : (s.countMismatch).scrState = s.scrState := rfl
@[simp] theorem countMismatch_scrKey (s : State) : (s.countMismatch).scrKey = s.scrKey := rfl
@[simp] theorem countMismatch_seq (s : State) : (s.countMismatch).seq = s.seq := rfl
@[simp] theorem countMismatch_written (s : State) : (s.countMismatch).written = s.written := rfl
@[simp] theorem countMismatch_faults (s : State) : (s.countMismatch).faults = s.faults := rfl
@[simp] theorem countMismatch_refused (s : State) : (s.countMismatch).refused = s.refused := rfl
@[simp] theorem countMismatch_mismatch (s : State) : (s.countMismatch).mismatch = s.mismatch + 1 := rfl
@[simp] theorem countMismatch_draws (s : State) : (s.countMismatch).draws = s.draws := rfl
@[simp] theorem countMismatch_readData (s : State) : (s.countMismatch).readData = s.readData := rfl
@[simp] theorem countMismatch_fnOut (s : State) : (s.countMismatch).fnOut = s.fnOut := rfl
@[simp] theorem countMismatch_host (s : State) : (s.countMismatch).host = s.host := rfl
@[simp] theorem countMismatch_got (s : State) : (s.countMismatch).got = s.got := rfl
@[simp] theorem countMismatch_turns (s : State) : (s.countMismatch).turns = s.turns := rfl
@[simp] theorem countMismatch_faultModel (s : State) : (s.countMismatch).faultModel = s.faultModel := rfl
@[simp] theorem countMismatch_injections (s : State) : (s.countMismatch).injections = s.injections := rfl
@[simp] theorem countMismatch_past (s : State) : (s.countMismatch).past = s.past := rfl

/-! ### putReadData -/

@[simp] theorem putReadData_state (s : State) (v : Byte) : (s.putReadData v).state = s.state := rfl
@[simp] theorem putReadData_iv (s : State) (v : Byte) : (s.putReadData v).iv = s.iv := rfl
@[simp] theorem putReadData_key (s : State) (v : Byte) : (s.putReadData v).key = s.key := rfl
@[simp] theorem putReadData_sched (s : State) (v : Byte) : (s.putReadData v).sched = s.sched := rfl
@[simp] theorem putReadData_seed (s : State) (v : Byte) : (s.putReadData v).seed = s.seed := rfl
@[simp] theorem putReadData_config (s : State) (v : Byte) : (s.putReadData v).config = s.config := rfl
@[simp] theorem putReadData_prng (s : State) (v : Byte) : (s.putReadData v).prng = s.prng := rfl
@[simp] theorem putReadData_dfaCopy (s : State) (v : Byte) : (s.putReadData v).dfaCopy = s.dfaCopy := rfl
@[simp] theorem putReadData_scrState (s : State) (v : Byte) : (s.putReadData v).scrState = s.scrState := rfl
@[simp] theorem putReadData_scrKey (s : State) (v : Byte) : (s.putReadData v).scrKey = s.scrKey := rfl
@[simp] theorem putReadData_seq (s : State) (v : Byte) : (s.putReadData v).seq = s.seq := rfl
@[simp] theorem putReadData_written (s : State) (v : Byte) : (s.putReadData v).written = s.written := rfl
@[simp] theorem putReadData_faults (s : State) (v : Byte) : (s.putReadData v).faults = s.faults := rfl
@[simp] theorem putReadData_refused (s : State) (v : Byte) : (s.putReadData v).refused = s.refused := rfl
@[simp] theorem putReadData_mismatch (s : State) (v : Byte) : (s.putReadData v).mismatch = s.mismatch := rfl
@[simp] theorem putReadData_draws (s : State) (v : Byte) : (s.putReadData v).draws = s.draws := rfl
@[simp] theorem putReadData_readData (s : State) (v : Byte) : (s.putReadData v).readData = v := rfl
@[simp] theorem putReadData_fnOut (s : State) (v : Byte) : (s.putReadData v).fnOut = s.fnOut := rfl
@[simp] theorem putReadData_host (s : State) (v : Byte) : (s.putReadData v).host = s.host := rfl
@[simp] theorem putReadData_got (s : State) (v : Byte) : (s.putReadData v).got = s.got := rfl
@[simp] theorem putReadData_turns (s : State) (v : Byte) : (s.putReadData v).turns = s.turns := rfl
@[simp] theorem putReadData_faultModel (s : State) (v : Byte) : (s.putReadData v).faultModel = s.faultModel := rfl
@[simp] theorem putReadData_injections (s : State) (v : Byte) : (s.putReadData v).injections = s.injections := rfl
@[simp] theorem putReadData_past (s : State) (v : Byte) : (s.putReadData v).past = s.past := rfl

/-! ### putFnOut -/

@[simp] theorem putFnOut_state (s : State) (v : Byte) : (s.putFnOut v).state = s.state := rfl
@[simp] theorem putFnOut_iv (s : State) (v : Byte) : (s.putFnOut v).iv = s.iv := rfl
@[simp] theorem putFnOut_key (s : State) (v : Byte) : (s.putFnOut v).key = s.key := rfl
@[simp] theorem putFnOut_sched (s : State) (v : Byte) : (s.putFnOut v).sched = s.sched := rfl
@[simp] theorem putFnOut_seed (s : State) (v : Byte) : (s.putFnOut v).seed = s.seed := rfl
@[simp] theorem putFnOut_config (s : State) (v : Byte) : (s.putFnOut v).config = s.config := rfl
@[simp] theorem putFnOut_prng (s : State) (v : Byte) : (s.putFnOut v).prng = s.prng := rfl
@[simp] theorem putFnOut_dfaCopy (s : State) (v : Byte) : (s.putFnOut v).dfaCopy = s.dfaCopy := rfl
@[simp] theorem putFnOut_scrState (s : State) (v : Byte) : (s.putFnOut v).scrState = s.scrState := rfl
@[simp] theorem putFnOut_scrKey (s : State) (v : Byte) : (s.putFnOut v).scrKey = s.scrKey := rfl
@[simp] theorem putFnOut_seq (s : State) (v : Byte) : (s.putFnOut v).seq = s.seq := rfl
@[simp] theorem putFnOut_written (s : State) (v : Byte) : (s.putFnOut v).written = s.written := rfl
@[simp] theorem putFnOut_faults (s : State) (v : Byte) : (s.putFnOut v).faults = s.faults := rfl
@[simp] theorem putFnOut_refused (s : State) (v : Byte) : (s.putFnOut v).refused = s.refused := rfl
@[simp] theorem putFnOut_mismatch (s : State) (v : Byte) : (s.putFnOut v).mismatch = s.mismatch := rfl
@[simp] theorem putFnOut_draws (s : State) (v : Byte) : (s.putFnOut v).draws = s.draws := rfl
@[simp] theorem putFnOut_readData (s : State) (v : Byte) : (s.putFnOut v).readData = s.readData := rfl
@[simp] theorem putFnOut_fnOut (s : State) (v : Byte) : (s.putFnOut v).fnOut = v := rfl
@[simp] theorem putFnOut_host (s : State) (v : Byte) : (s.putFnOut v).host = s.host := rfl
@[simp] theorem putFnOut_got (s : State) (v : Byte) : (s.putFnOut v).got = s.got := rfl
@[simp] theorem putFnOut_turns (s : State) (v : Byte) : (s.putFnOut v).turns = s.turns := rfl
@[simp] theorem putFnOut_faultModel (s : State) (v : Byte) : (s.putFnOut v).faultModel = s.faultModel := rfl
@[simp] theorem putFnOut_injections (s : State) (v : Byte) : (s.putFnOut v).injections = s.injections := rfl
@[simp] theorem putFnOut_past (s : State) (v : Byte) : (s.putFnOut v).past = s.past := rfl

/-! ### spend -/

@[simp] theorem spend_state (s : State) (n : Nat) : (s.spend n).state = s.state := rfl
@[simp] theorem spend_iv (s : State) (n : Nat) : (s.spend n).iv = s.iv := rfl
@[simp] theorem spend_key (s : State) (n : Nat) : (s.spend n).key = s.key := rfl
@[simp] theorem spend_sched (s : State) (n : Nat) : (s.spend n).sched = s.sched := rfl
@[simp] theorem spend_seed (s : State) (n : Nat) : (s.spend n).seed = s.seed := rfl
@[simp] theorem spend_config (s : State) (n : Nat) : (s.spend n).config = s.config := rfl
@[simp] theorem spend_prng (s : State) (n : Nat) : (s.spend n).prng = s.prng := rfl
@[simp] theorem spend_dfaCopy (s : State) (n : Nat) : (s.spend n).dfaCopy = s.dfaCopy := rfl
@[simp] theorem spend_scrState (s : State) (n : Nat) : (s.spend n).scrState = s.scrState := rfl
@[simp] theorem spend_scrKey (s : State) (n : Nat) : (s.spend n).scrKey = s.scrKey := rfl
@[simp] theorem spend_seq (s : State) (n : Nat) : (s.spend n).seq = s.seq := rfl
@[simp] theorem spend_written (s : State) (n : Nat) : (s.spend n).written = s.written := rfl
@[simp] theorem spend_faults (s : State) (n : Nat) : (s.spend n).faults = s.faults := rfl
@[simp] theorem spend_refused (s : State) (n : Nat) : (s.spend n).refused = s.refused := rfl
@[simp] theorem spend_mismatch (s : State) (n : Nat) : (s.spend n).mismatch = s.mismatch := rfl
@[simp] theorem spend_draws (s : State) (n : Nat) : (s.spend n).draws = s.draws + n := rfl
@[simp] theorem spend_readData (s : State) (n : Nat) : (s.spend n).readData = s.readData := rfl
@[simp] theorem spend_fnOut (s : State) (n : Nat) : (s.spend n).fnOut = s.fnOut := rfl
@[simp] theorem spend_host (s : State) (n : Nat) : (s.spend n).host = s.host := rfl
@[simp] theorem spend_got (s : State) (n : Nat) : (s.spend n).got = s.got := rfl
@[simp] theorem spend_turns (s : State) (n : Nat) : (s.spend n).turns = s.turns := rfl
@[simp] theorem spend_faultModel (s : State) (n : Nat) : (s.spend n).faultModel = s.faultModel := rfl
@[simp] theorem spend_injections (s : State) (n : Nat) : (s.spend n).injections = s.injections := rfl
@[simp] theorem spend_past (s : State) (n : Nat) : (s.spend n).past = s.past := rfl

/-! ### record -/

@[simp] theorem record_state (s : State) (l : List Fault) : (s.record l).state = s.state := rfl
@[simp] theorem record_iv (s : State) (l : List Fault) : (s.record l).iv = s.iv := rfl
@[simp] theorem record_key (s : State) (l : List Fault) : (s.record l).key = s.key := rfl
@[simp] theorem record_sched (s : State) (l : List Fault) : (s.record l).sched = s.sched := rfl
@[simp] theorem record_seed (s : State) (l : List Fault) : (s.record l).seed = s.seed := rfl
@[simp] theorem record_config (s : State) (l : List Fault) : (s.record l).config = s.config := rfl
@[simp] theorem record_prng (s : State) (l : List Fault) : (s.record l).prng = s.prng := rfl
@[simp] theorem record_dfaCopy (s : State) (l : List Fault) : (s.record l).dfaCopy = s.dfaCopy := rfl
@[simp] theorem record_scrState (s : State) (l : List Fault) : (s.record l).scrState = s.scrState := rfl
@[simp] theorem record_scrKey (s : State) (l : List Fault) : (s.record l).scrKey = s.scrKey := rfl
@[simp] theorem record_seq (s : State) (l : List Fault) : (s.record l).seq = s.seq := rfl
@[simp] theorem record_written (s : State) (l : List Fault) : (s.record l).written = s.written := rfl
@[simp] theorem record_faults (s : State) (l : List Fault) : (s.record l).faults = s.faults ++ l := rfl
@[simp] theorem record_refused (s : State) (l : List Fault) : (s.record l).refused = s.refused := rfl
@[simp] theorem record_mismatch (s : State) (l : List Fault) : (s.record l).mismatch = s.mismatch := rfl
@[simp] theorem record_draws (s : State) (l : List Fault) : (s.record l).draws = s.draws := rfl
@[simp] theorem record_readData (s : State) (l : List Fault) : (s.record l).readData = s.readData := rfl
@[simp] theorem record_fnOut (s : State) (l : List Fault) : (s.record l).fnOut = s.fnOut := rfl
@[simp] theorem record_host (s : State) (l : List Fault) : (s.record l).host = s.host := rfl
@[simp] theorem record_got (s : State) (l : List Fault) : (s.record l).got = s.got := rfl
@[simp] theorem record_turns (s : State) (l : List Fault) : (s.record l).turns = s.turns := rfl
@[simp] theorem record_faultModel (s : State) (l : List Fault) : (s.record l).faultModel = s.faultModel := rfl
@[simp] theorem record_injections (s : State) (l : List Fault) : (s.record l).injections = s.injections := rfl
@[simp] theorem record_past (s : State) (l : List Fault) : (s.record l).past = s.past := rfl

/-! ### refuse -/

@[simp] theorem refuse_state (s : State) : (s.refuse).state = s.state := rfl
@[simp] theorem refuse_iv (s : State) : (s.refuse).iv = s.iv := rfl
@[simp] theorem refuse_key (s : State) : (s.refuse).key = s.key := rfl
@[simp] theorem refuse_sched (s : State) : (s.refuse).sched = s.sched := rfl
@[simp] theorem refuse_seed (s : State) : (s.refuse).seed = s.seed := rfl
@[simp] theorem refuse_config (s : State) : (s.refuse).config = s.config := rfl
@[simp] theorem refuse_prng (s : State) : (s.refuse).prng = s.prng := rfl
@[simp] theorem refuse_dfaCopy (s : State) : (s.refuse).dfaCopy = s.dfaCopy := rfl
@[simp] theorem refuse_scrState (s : State) : (s.refuse).scrState = s.scrState := rfl
@[simp] theorem refuse_scrKey (s : State) : (s.refuse).scrKey = s.scrKey := rfl
@[simp] theorem refuse_seq (s : State) : (s.refuse).seq = s.seq := rfl
@[simp] theorem refuse_written (s : State) : (s.refuse).written = s.written := rfl
@[simp] theorem refuse_faults (s : State) : (s.refuse).faults = s.faults := rfl
@[simp] theorem refuse_refused (s : State) : (s.refuse).refused = true := rfl
@[simp] theorem refuse_mismatch (s : State) : (s.refuse).mismatch = s.mismatch := rfl
@[simp] theorem refuse_draws (s : State) : (s.refuse).draws = s.draws := rfl
@[simp] theorem refuse_readData (s : State) : (s.refuse).readData = s.readData := rfl
@[simp] theorem refuse_fnOut (s : State) : (s.refuse).fnOut = s.fnOut := rfl
@[simp] theorem refuse_host (s : State) : (s.refuse).host = s.host := rfl
@[simp] theorem refuse_got (s : State) : (s.refuse).got = s.got := rfl
@[simp] theorem refuse_turns (s : State) : (s.refuse).turns = s.turns := rfl
@[simp] theorem refuse_faultModel (s : State) : (s.refuse).faultModel = s.faultModel := rfl
@[simp] theorem refuse_injections (s : State) : (s.refuse).injections = s.injections := rfl
@[simp] theorem refuse_past (s : State) : (s.refuse).past = s.past := rfl

/-! ### note -/

@[simp] theorem note_state (s : State) (e : Config.RunEvent) : (s.note e).state = s.state := rfl
@[simp] theorem note_iv (s : State) (e : Config.RunEvent) : (s.note e).iv = s.iv := rfl
@[simp] theorem note_key (s : State) (e : Config.RunEvent) : (s.note e).key = s.key := rfl
@[simp] theorem note_sched (s : State) (e : Config.RunEvent) : (s.note e).sched = s.sched := rfl
@[simp] theorem note_seed (s : State) (e : Config.RunEvent) : (s.note e).seed = s.seed := rfl
@[simp] theorem note_config (s : State) (e : Config.RunEvent) : (s.note e).config = s.config := rfl
@[simp] theorem note_prng (s : State) (e : Config.RunEvent) : (s.note e).prng = s.prng := rfl
@[simp] theorem note_dfaCopy (s : State) (e : Config.RunEvent) : (s.note e).dfaCopy = s.dfaCopy := rfl
@[simp] theorem note_scrState (s : State) (e : Config.RunEvent) : (s.note e).scrState = s.scrState := rfl
@[simp] theorem note_scrKey (s : State) (e : Config.RunEvent) : (s.note e).scrKey = s.scrKey := rfl
@[simp] theorem note_seq (s : State) (e : Config.RunEvent) : (s.note e).seq = s.seq := rfl
@[simp] theorem note_written (s : State) (e : Config.RunEvent) : (s.note e).written = s.written := rfl
@[simp] theorem note_faults (s : State) (e : Config.RunEvent) : (s.note e).faults = s.faults := rfl
@[simp] theorem note_refused (s : State) (e : Config.RunEvent) : (s.note e).refused = s.refused := rfl
@[simp] theorem note_mismatch (s : State) (e : Config.RunEvent) : (s.note e).mismatch = s.mismatch := rfl
@[simp] theorem note_draws (s : State) (e : Config.RunEvent) : (s.note e).draws = s.draws := rfl
@[simp] theorem note_readData (s : State) (e : Config.RunEvent) : (s.note e).readData = s.readData := rfl
@[simp] theorem note_fnOut (s : State) (e : Config.RunEvent) : (s.note e).fnOut = s.fnOut := rfl
@[simp] theorem note_host (s : State) (e : Config.RunEvent) : (s.note e).host = s.host := rfl
@[simp] theorem note_got (s : State) (e : Config.RunEvent) : (s.note e).got = s.got := rfl
@[simp] theorem note_turns (s : State) (e : Config.RunEvent) : (s.note e).turns = s.turns := rfl
@[simp] theorem note_faultModel (s : State) (e : Config.RunEvent) : (s.note e).faultModel = s.faultModel := rfl
@[simp] theorem note_injections (s : State) (e : Config.RunEvent) : (s.note e).injections = s.injections := rfl
@[simp] theorem note_past (s : State) (e : Config.RunEvent) : (s.note e).past = e :: s.past := rfl

/-! ### dropTurn -/

@[simp] theorem dropTurn_state (s : State) : (s.dropTurn).state = s.state := rfl
@[simp] theorem dropTurn_iv (s : State) : (s.dropTurn).iv = s.iv := rfl
@[simp] theorem dropTurn_key (s : State) : (s.dropTurn).key = s.key := rfl
@[simp] theorem dropTurn_sched (s : State) : (s.dropTurn).sched = s.sched := rfl
@[simp] theorem dropTurn_seed (s : State) : (s.dropTurn).seed = s.seed := rfl
@[simp] theorem dropTurn_config (s : State) : (s.dropTurn).config = s.config := rfl
@[simp] theorem dropTurn_prng (s : State) : (s.dropTurn).prng = s.prng := rfl
@[simp] theorem dropTurn_dfaCopy (s : State) : (s.dropTurn).dfaCopy = s.dfaCopy := rfl
@[simp] theorem dropTurn_scrState (s : State) : (s.dropTurn).scrState = s.scrState := rfl
@[simp] theorem dropTurn_scrKey (s : State) : (s.dropTurn).scrKey = s.scrKey := rfl
@[simp] theorem dropTurn_seq (s : State) : (s.dropTurn).seq = s.seq := rfl
@[simp] theorem dropTurn_written (s : State) : (s.dropTurn).written = s.written := rfl
@[simp] theorem dropTurn_faults (s : State) : (s.dropTurn).faults = s.faults := rfl
@[simp] theorem dropTurn_refused (s : State) : (s.dropTurn).refused = s.refused := rfl
@[simp] theorem dropTurn_mismatch (s : State) : (s.dropTurn).mismatch = s.mismatch := rfl
@[simp] theorem dropTurn_draws (s : State) : (s.dropTurn).draws = s.draws := rfl
@[simp] theorem dropTurn_readData (s : State) : (s.dropTurn).readData = s.readData := rfl
@[simp] theorem dropTurn_fnOut (s : State) : (s.dropTurn).fnOut = s.fnOut := rfl
@[simp] theorem dropTurn_host (s : State) : (s.dropTurn).host = s.host := rfl
@[simp] theorem dropTurn_got (s : State) : (s.dropTurn).got = s.got := rfl
@[simp] theorem dropTurn_turns (s : State) : (s.dropTurn).turns = s.turns.tail := rfl
@[simp] theorem dropTurn_faultModel (s : State) : (s.dropTurn).faultModel = s.faultModel := rfl
@[simp] theorem dropTurn_injections (s : State) : (s.dropTurn).injections = s.injections := rfl
@[simp] theorem dropTurn_past (s : State) : (s.dropTurn).past = s.past := rfl

/-- Recording nothing changes nothing. -/
@[simp] theorem record_nil (s : State) : s.record [] = s := by simp [record]

/-- Taking no draw changes nothing. -/
@[simp] theorem spend_zero (s : State) : s.spend 0 = s := rfl

/-! ### endCommand -/

@[simp] theorem endCommand_seq (s : State) (c : Command) : (s.endCommand c).seq = .idle := by
  unfold endCommand; split <;> rfl
@[simp] theorem endCommand_state (s : State) (c : Command) : (s.endCommand c).state = s.state := by
  unfold endCommand; split <;> rfl
@[simp] theorem endCommand_iv (s : State) (c : Command) : (s.endCommand c).iv = s.iv := by
  unfold endCommand; split <;> rfl
@[simp] theorem endCommand_key (s : State) (c : Command) : (s.endCommand c).key = s.key := by
  unfold endCommand; split <;> rfl
@[simp] theorem endCommand_sched (s : State) (c : Command) : (s.endCommand c).sched = s.sched := by
  unfold endCommand; split <;> rfl
@[simp] theorem endCommand_seed (s : State) (c : Command) : (s.endCommand c).seed = s.seed := by
  unfold endCommand; split <;> rfl
@[simp] theorem endCommand_config (s : State) (c : Command) : (s.endCommand c).config = s.config := by
  unfold endCommand; split <;> rfl
@[simp] theorem endCommand_prng (s : State) (c : Command) : (s.endCommand c).prng = s.prng := by
  unfold endCommand; split <;> rfl
@[simp] theorem endCommand_written (s : State) (c : Command) : (s.endCommand c).written = s.written := by
  unfold endCommand; split <;> rfl
@[simp] theorem endCommand_faults (s : State) (c : Command) : (s.endCommand c).faults = s.faults := by
  unfold endCommand; split <;> rfl
@[simp] theorem endCommand_refused (s : State) (c : Command) : (s.endCommand c).refused = s.refused := by
  unfold endCommand; split <;> rfl
@[simp] theorem endCommand_mismatch (s : State) (c : Command) : (s.endCommand c).mismatch = s.mismatch := by
  unfold endCommand; split <;> rfl
@[simp] theorem endCommand_readData (s : State) (c : Command) : (s.endCommand c).readData = s.readData := by
  unfold endCommand; split <;> rfl
@[simp] theorem endCommand_fnOut (s : State) (c : Command) : (s.endCommand c).fnOut = s.fnOut := by
  unfold endCommand; split <;> rfl
@[simp] theorem endCommand_host (s : State) (c : Command) : (s.endCommand c).host = s.host := by
  unfold endCommand; split <;> rfl
@[simp] theorem endCommand_got (s : State) (c : Command) : (s.endCommand c).got = s.got := by
  unfold endCommand; split <;> rfl
@[simp] theorem endCommand_turns (s : State) (c : Command) : (s.endCommand c).turns = s.turns := by
  unfold endCommand; split <;> rfl
@[simp] theorem endCommand_faultModel (s : State) (c : Command) : (s.endCommand c).faultModel = s.faultModel := by
  unfold endCommand; split <;> rfl
@[simp] theorem endCommand_injections (s : State) (c : Command) : (s.endCommand c).injections = s.injections := by
  unfold endCommand; split <;> rfl
@[simp] theorem endCommand_past (s : State) (c : Command) : (s.endCommand c).past = s.past := by
  unfold endCommand; split <;> rfl

end Sys2Proof.Machine.State
end

