-- ==== Sys2Proof/Laws/Ops.lean ====
section
/-!
SUPPORT. One lemma per shared operation that says what it can do: the core's reads, the passes, the sequencer's list,
the host's accesses, and `settle`.
-/
namespace Sys2Proof.Machine

/-! ### The core's reads (R205) -/

/-- Where everything is written, nothing is unwritten. -/
theorem unwrittenIn_all {n : Nat} : unwrittenIn (Vector.replicate n true) = [] := by
  simp [unwrittenIn]

/-- A written buffer is read exactly, and the read changes nothing. -/
theorem coreRead_of_written {n : Nat} (s : State) (e : DataBuf) (off : Nat) (v : Vector Byte n) (w : Vector Bool n)
    (h : w = Vector.replicate n true) : s.coreRead e off v w = (v, s) := by
  subst h
  simp only [State.coreRead, unwrittenIn_all, List.map_nil, List.length_nil, State.record_nil, State.spend_zero]
  congr 1
  ext i hi
  simp

/-- What any read does: written bytes as they are, one model fault per unwritten byte in increasing order, and as many
draws. -/
theorem coreRead_spec {n : Nat} (s : State) (e : DataBuf) (off : Nat) (v : Vector Byte n) (w : Vector Bool n) :
    (∀ j : Fin n, w[j] = true → (s.coreRead e off v w).1[j] = v[j]) ∧
      (s.coreRead e off v w).2 =
        (s.record ((unwrittenIn w).map fun j => .unwrittenRead e (off + j))).spend (unwrittenIn w).length := by
  refine ⟨fun j hj => ?_, rfl⟩
  simp only [Fin.getElem_fin] at hj
  simp [State.coreRead, hj]

/-- STATE is read exactly where it is written. -/
theorem readState_of_written {s : State} (h : s.stateWritten) : s.readState = (s.state, s) :=
  coreRead_of_written _ _ _ _ _ h

/-- IV is read exactly where it is written. -/
theorem readIv_of_written {s : State} (h : s.ivWritten) : s.readIv = (s.iv, s) :=
  coreRead_of_written _ _ _ _ _ h

/-- KEY is read exactly where it is written. -/
theorem readKeyBuf_of_written {s : State} (h : s.keyWritten) : s.readKeyBuf = (s.key, s) :=
  coreRead_of_written _ _ _ _ _ h

/-- SEED is read exactly where it is written. -/
theorem readSeed_of_written {s : State} (h : s.seedWritten) : s.readSeed = (s.seed, s) :=
  coreRead_of_written _ _ _ _ _ h

/-- A round key is read exactly where it is written. -/
theorem readRoundKey_of_written {s : State} {n : Fin 11}
    (h : roundKeyWritten s.written.sched n = Vector.replicate 16 true) :
    s.readRoundKey n = (roundKey s.sched n, s) :=
  coreRead_of_written _ _ _ _ _ h

/-- A word of the schedule is read exactly where it is written. -/
theorem readWord_of_written {s : State} {i : Fin 44} (h : wordWritten s.written.sched i = Vector.replicate 4 true) :
    s.readWord i = (wordAt s.sched i, s) :=
  coreRead_of_written _ _ _ _ _ h

/-- Every round key of a written schedule is written. -/
theorem roundKeyWritten_of_schedWritten {s : State} (h : s.schedWritten) (n : Fin 11) :
    roundKeyWritten s.written.sched n = Vector.replicate 16 true := by
  ext j hj
  simp [roundKeyWritten, h]

/-- Every word of a written schedule is written. -/
theorem wordWritten_of_schedWritten {s : State} (h : s.schedWritten) (i : Fin 44) :
    wordWritten s.written.sched i = Vector.replicate 4 true := by
  ext j hj
  simp [wordWritten, h]

/-! ### Targets, keys and passes (R77, R130 to R136, R150) -/

/-- A target that can be read without a model fault is read exactly. -/
theorem readTarget_of_ready {s : State} {x : Target} (h : s.targetReady x) : s.readTarget x = (s.bytesOf x, s) := by
  cases x with
  | state => exact readState_of_written (h rfl)
  | dfaCopy => rfl
  | scrState => rfl

/-- A key that can be read without a model fault is read exactly. -/
theorem readKey_of_ready {s : State} {k : KeySel} (h : s.keyReady k) : s.readKey k = (s.keyBytes k, s) := by
  cases k with
  | round n => exact readRoundKey_of_written h
  | scratch => rfl

/-- A pass on a target that can be read writes the function's value there, and nothing else. -/
theorem transform_of_ready {s : State} {x : Target} (h : s.targetReady x) (f : Block → Block) :
    s.transform x f = s.writeTarget x (f (s.bytesOf x)) := by
  simp [State.transform, readTarget_of_ready h]

/-- A pass with a second operand that is read exactly. -/
theorem combine_of_ready {s : State} {x : Target} {g : State → Block × State} {k : Block} (h : s.targetReady x)
    (hg : g s = (k, s)) : s.combine x g = s.writeTarget x (xorBlock (s.bytesOf x) k) := by
  simp [State.combine, readTarget_of_ready h, hg]

/-- A target holds what was written to it. -/
@[simp] theorem bytesOf_writeTarget (s : State) (x : Target) (b : Block) : (s.writeTarget x b).bytesOf x = b := by
  cases x <;> rfl

/-- Writing one target leaves the others. -/
theorem bytesOf_writeTarget_of_ne {s : State} {x y : Target} {b : Block} (h : x ≠ y) :
    (s.writeTarget x b).bytesOf y = s.bytesOf y := by
  cases x <;> cases y <;> first | rfl | exact absurd rfl h

/-- Writing a target twice leaves the second value. -/
@[simp] theorem writeTarget_writeTarget (s : State) (x : Target) (a b : Block) :
    (s.writeTarget x a).writeTarget x b = s.writeTarget x b := by
  cases x <;> rfl

/-- After a write the target can be read without a model fault. -/
theorem targetReady_writeTarget (s : State) (x : Target) (b : Block) : (s.writeTarget x b).targetReady x := by
  intro h
  subst h
  rfl

/-! ### What every read and pass can do (R205) -/

/-- The faults of a read are those of `lostReads`. -/
theorem unwrittenIn_faults {n : Nat} (e : DataBuf) (off : Nat) (w : Vector Bool n) :
    (unwrittenIn w).map (fun j => Fault.unwrittenRead e (off + j)) = lostReads e off w := by
  have h : List.range n = (List.finRange n).map Fin.val := by
    apply List.ext_getElem <;> simp
  unfold unwrittenIn lostReads
  rw [h, List.filter_map]
  congr 2
  apply List.filter_congr
  intro j _
  simp

/-- A read records `lostReads` and changes nothing else but the count of draws. -/
theorem coreRead_frame {n : Nat} (s : State) (e : DataBuf) (off : Nat) (v : Vector Byte n) (w : Vector Bool n) :
    (s.coreRead e off v w).2 =
      { s with faults := s.faults ++ lostReads e off w, draws := (s.coreRead e off v w).2.draws } := by
  rw [(coreRead_spec s e off v w).2, unwrittenIn_faults]
  rfl

/-- What reading any target can do. -/
theorem readTarget_spec (s : State) (x : Target) :
    s.seesTarget x (s.readTarget x).1 ∧
      (s.readTarget x).2 =
        { s with faults := s.faults ++ s.targetFaults x, draws := (s.readTarget x).2.draws } := by
  cases x with
  | state => exact ⟨(coreRead_spec s .state 0 s.state s.written.state).1, coreRead_frame ..⟩
  | dfaCopy => exact ⟨fun _ _ => rfl, by simp [State.readTarget, State.targetFaults]⟩
  | scrState => exact ⟨fun _ _ => rfl, by simp [State.readTarget, State.targetFaults]⟩

/-- What reading any key can do. -/
theorem readKey_spec (s : State) (k : KeySel) :
    s.seesKey k (s.readKey k).1 ∧
      (s.readKey k).2 = { s with faults := s.faults ++ s.keyFaults k, draws := (s.readKey k).2.draws } := by
  cases k with
  | round n =>
    refine ⟨fun j hj => ?_, coreRead_frame ..⟩
    refine (coreRead_spec s .sched (16 * n.val) (roundKey s.sched n) (roundKeyWritten s.written.sched n)).1 j ?_
    simpa [roundKeyWritten, State.keyByteWritten] using hj
  | scratch => exact ⟨fun _ _ => rfl, by simp [State.readKey, State.keyFaults]⟩

/-- What a pass can do, on any state: it sees some value for each unwritten byte, writes the function's value to the
target, records the target's faults and changes nothing else but the count of draws. -/
theorem transform_spec (s : State) (x : Target) (f : Block → Block) :
    ∃ a, s.seesTarget x a ∧ (s.transform x f).bytesOf x = f a ∧
      s.transform x f =
        { s.writeTarget x (f a) with
          faults := s.faults ++ s.targetFaults x, draws := (s.transform x f).draws } := by
  refine ⟨(s.readTarget x).1, (readTarget_spec s x).1, by simp [State.transform], ?_⟩
  simp only [State.transform]
  rw [(readTarget_spec s x).2]
  cases x <;> rfl

/-- What a pass with a second operand can do, where `g` reads that operand, recording `fs`. -/
theorem combine_spec (s : State) (x : Target) (g : State → Block × State) (fs : List Fault)
    (hg : ∀ t : State, (g t).2 = { t with faults := t.faults ++ fs, draws := (g t).2.draws }) :
    s.combine x g =
      { s.writeTarget x (xorBlock (s.readTarget x).1 (g (s.readTarget x).2).1) with
        faults := s.faults ++ s.targetFaults x ++ fs, draws := (s.combine x g).draws } := by
  simp only [State.combine]
  rw [hg, (readTarget_spec s x).2]
  cases x <;> rfl

/-! ### The sequencer's list (R76) -/

/-- An expansion goes to the head of the running list. -/
theorem prepend_running {s : State} {c : Command} {rest : List Instr} (h : s.seq = .running c rest) (l : List Instr) :
    s.prepend l = s.putSeq (.running c (l ++ rest)) := by
  simp [State.prepend, h]

/-- BUSY is 1 while a list is running. -/
theorem busy_of_running {s : State} {c : Command} {rest : List Instr} (h : s.seq = .running c rest) :
    s.busy = true := by
  simp [State.busy, h]

/-- BUSY is 0 at Idle. -/
theorem busy_of_idle {s : State} (h : s.seq = .idle) : s.busy = false := by
  simp [State.busy, h]

/-- BUSY is 0 only at Idle. -/
theorem idle_of_not_busy {s : State} (h : s.busy = false) : s.seq = .idle := by
  unfold State.busy at h
  split at h
  · assumption
  · cases h

/-- A macro answers its expansion while a list is running. -/
theorem expanded_of_busy {s : State} (h : s.busy = true) (f : State → State) : s.expanded f = .next (f s) := by
  simp [State.expanded, h]

/-! ### The host's accesses (R55 to R57) -/

/-- Any host write while busy records the model fault and changes nothing else (R57). -/
theorem hostWrite_of_busy {s : State} (h : s.busy = true) (a d : Byte) :
    s.hostWrite a d = s.record [.hostWriteWhileBusy a d] := by
  simp [State.hostWrite, h]

/-- CMD is at 0x34 (R52). -/
theorem locate_cmdAddress : locate cmdAddress = .cmd := by decide

/-- STATUS is at 0x35 (R52). -/
theorem locate_statusAddress : locate statusAddress = .status := by decide

/-- A command byte written to CMD while idle is accepted where the build has the command (R72). -/
theorem hostWrite_accept {s : State} {c : Command} (h : s.busy = false) (hp : commandPresent s.config c = true) :
    s.hostWrite cmdAddress c.byte = s.accept c := by
  have hc : decodeCommand c.byte = some c := by cases c <;> rfl
  simp [State.hostWrite, h, locate_cmdAddress, State.writeCmd, hc, hp]

/-- A host read changes at most the count of draws. -/
theorem hostRead_state (s : State) (a : Byte) : (s.hostRead a).2 = s ∨ (s.hostRead a).2 = s.spend 1 := by
  unfold State.hostRead
  split
  · split
    · exact .inr rfl
    · exact .inl rfl
  all_goals exact .inl rfl

/-! ### `settle` (R76) -/

/-- What replacing a macro or ending a command can do to the state: it changes the list, `prng`, the hidden buffers and
the count of draws at most. -/
def OnlyHidden (s t : State) : Prop :=
  ∃ q p x y z d, t = { s with seq := q, prng := p, dfaCopy := x, scrState := y, scrKey := z, draws := d }

/-- Nothing changed is such a change. -/
theorem OnlyHidden.refl (s : State) : OnlyHidden s s :=
  ⟨s.seq, s.prng, s.dfaCopy, s.scrState, s.scrKey, s.draws, rfl⟩

/-- Such changes compose. -/
theorem OnlyHidden.trans {s t u : State} (h : OnlyHidden s t) (k : OnlyHidden t u) : OnlyHidden s u := by
  obtain ⟨_, _, _, _, _, _, rfl⟩ := h
  obtain ⟨q, p, x, y, z, d, rfl⟩ := k
  exact ⟨q, p, x, y, z, d, rfl⟩

/-- Replacing the list is such a change. -/
theorem OnlyHidden.putSeq (s : State) (q : Seq) : OnlyHidden s (s.putSeq q) :=
  ⟨q, s.prng, s.dfaCopy, s.scrState, s.scrKey, s.draws, rfl⟩

/-- So is ending a command. -/
theorem OnlyHidden.endCommand (s : State) (c : Command) : OnlyHidden s (s.endCommand c) := by
  unfold State.endCommand
  split
  · exact ⟨_, s.prng, _, _, _, _, rfl⟩
  · exact .putSeq s _

/-- So is putting an expansion at its head. -/
theorem OnlyHidden.prepend (s : State) (l : List Instr) : OnlyHidden s (s.prepend l) := by
  unfold State.prepend
  split
  · exact .refl s
  · exact .putSeq s _

/-- A macro that answers a next state changes the list, `prng` and the count of draws at most. -/
theorem exec_macro {u : Instr} {s t : State} (hu : isMacro u = true) (h : exec u s = .next t) : OnlyHidden s t := by
  have key : ∀ f : State → State, (∀ r, OnlyHidden r (f r)) → s.expanded f = .next t → OnlyHidden s t := by
    intro f hf he
    unfold State.expanded at he
    split at he
    · cases he
      exact hf s
    · cases he
  have draws : ∀ (r : State) (n : Nat) (l : List Instr), OnlyHidden r (((r.spend n).redrawPrng).prepend l) := by
    intro r n l
    exact .trans ⟨r.seq, Config.freePrng (r.draws + n), r.dfaCopy, r.scrState, r.scrKey, r.draws + n + 1, rfl⟩
      (.prepend _ l)
  cases u with
  | round x k => exact key _ (fun r => .prepend r _) h
  | lastRound x k => exact key _ (fun r => .prepend r _) h
  | firstInvRound x k => exact key _ (fun r => .prepend r _) h
  | invRound x k => exact key _ (fun r => .prepend r _) h
  | delay c => exact key _ (fun r => draws r 1 _) h
  | decoyGroup kind x n => exact key _ (fun r => draws r 2 _) h
  | dual =>
    have h' : execDual s = .next t := h
    unfold execDual at h'
    split at h'
    · cases h'
    · split at h'
      · cases h'
        exact .prepend s _
      · cases h'
  | _ => cases hu

/-- What `settle` can do, whatever its fuel. -/
theorem settleFor_only (n : Nat) (s : State) : OnlyHidden s (settleFor n s) := by
  induction n generalizing s with
  | zero => exact .refl s
  | succ n ih =>
    unfold settleFor
    split
    · exact .refl s
    · exact .endCommand s _
    · rename_i c u rest hs
      split
      · rename_i hu
        split
        · rename_i t he
          exact (OnlyHidden.putSeq s _).trans ((exec_macro hu he).trans (ih t))
        · exact .refl s
        · exact .refl s
      · exact .refl s

/-- `settle` changes the list, `prng`, the hidden buffers and the count of draws at most. -/
theorem settle_only (s : State) : OnlyHidden s (settle s) := settleFor_only _ s

/-- `settle` leaves a state at Idle. -/
theorem settle_of_idle {s : State} (h : s.seq = .idle) : settle s = s := by
  simp [settle, settleFuel, h, settleFor]

/-- `settle` leaves a list whose head is no macro. -/
theorem settle_of_head {s : State} {c : Command} {u : Instr} {rest : List Instr} (h : s.seq = .running c (u :: rest))
    (hu : isMacro u = false) : settle s = s := by
  simp [settle, settleFuel, h, settleFor, hu]

/-- `settle` ends a command whose list is empty. -/
theorem settle_of_nil {s : State} {c : Command} (h : s.seq = .running c []) : settle s = s.endCommand c := by
  simp [settle, settleFuel, h, settleFor]

/-! ### A step -/

/-- A step that answers a next state is a turn that answered one, settled. -/
theorem step_next {s t : State} (h : step s = .next t) :
    ∃ r, takeTurn s.nextTurn s.dropTurn = .next r ∧ t = settle r := by
  unfold step mapNext at h
  split at h
  · rename_i r hr
    cases h
    exact ⟨r, hr, rfl⟩
  · cases h
  · cases h

end Sys2Proof.Machine
end

