-- ==== Sys2Proof/Laws/PerInstr.lean ====
section
/-!
SUPPORT. Statements for all instructions, one lemma per constructor. Family OpcodeRow: the fixed bits of an instruction's
word are those its row of spec/opcode_table.json gives by mask and match. A function's row fixes the id in bits 7:0.
-/
namespace Sys2Proof.Laws.OpcodeRow

/-- The value of a word, numbered as the opcode table numbers it. -/
def value : RawWord → Nat
  | .cmd v => v.toNat
  | .host t => t.toNat
  | .ustep u => u.toNat
  | .ustep24 u => u.toNat
  | .func f => f.toNat

/-- The mask and the match of each row. -/
def row : Instr → Nat × Nat
  | .expandKey => (0xFF, 0x01)
  | .ecbEnc => (0xFF, 0x02)
  | .ecbDec => (0xFF, 0x03)
  | .cbcEnc => (0xFF, 0x04)
  | .cbcDec => (0xFF, 0x05)
  | .seed => (0xFF, 0x06)
  | .hostWr _ _ => (0x10000, 0x10000)
  | .hostRd _ => (0x100FF, 0x00000)
  | .keyCopy => (0xFFFF, 0x5000)
  | .keyWord _ => (0xFFC0, 0x5100)
  | .subBytes _ => (0xFF3F, 0x6000)
  | .invSubBytes _ => (0xFF3F, 0x6100)
  | .shiftRows _ => (0xFF3F, 0x6200)
  | .invShiftRows _ => (0xFF3F, 0x6300)
  | .mixColumns _ => (0xFF3F, 0x6400)
  | .invMixColumns _ => (0xFF3F, 0x6500)
  | .addRoundKey _ _ => (0xFF00, 0x6600)
  | .xorIv _ => (0xFF3F, 0x6700)
  | .round _ _ => (0xFF00, 0x7000)
  | .lastRound _ _ => (0xFF00, 0x7100)
  | .firstInvRound _ _ => (0xFF00, 0x7200)
  | .invRound _ _ => (0xFF00, 0x7300)
  | .idle => (0xFFFF, 0x8000)
  | .delay _ => (0xFFC0, 0x8100)
  | .decoyGroup _ _ _ => (0xFF0000, 0x820000)
  | .decoyFill => (0xFFFF, 0x8300)
  | .dfaSnapshot => (0xFFFF, 0x8400)
  | .dfaCompare => (0xFFFF, 0x8500)
  | .dual => (0xFFFF, 0x8600)
  | .prngSeed => (0xFFFF, 0x8700)
  | .sboxLookup _ => (0xFF, 0x40)
  | .invSboxLookup _ => (0xFF, 0x41)
  | .gfMul _ _ _ => (0xFF, 0x42)

/-- The word of an instruction has its row's fixed bits. -/
def Statement (i : Instr) : Prop := value (encode i) &&& (row i).1 = (row i).2

/-- Bit 16 of a host word is `w`. -/
theorem hostWord_w (w : BitVec 1) (a d : Byte) : (w ++ a ++ d).toNat &&& 0x10000 = (w ++ 0#8 ++ 0#8).toNat := by
  have h : (w ++ a ++ d) &&& 0x10000#17 = w ++ 0#8 ++ 0#8 := by
    refine BitVec.eq_of_getLsbD_eq fun i hi => ?_
    simp only [BitVec.getLsbD_and, BitVec.getLsbD_append]
    have : i < 8 ∨ (8 ≤ i ∧ i < 16) ∨ i = 16 := by omega
    rcases this with h | h | h
    · have : i = 0 ∨ i = 1 ∨ i = 2 ∨ i = 3 ∨ i = 4 ∨ i = 5 ∨ i = 6 ∨ i = 7 := by omega
      rcases this with h | h | h | h | h | h | h | h <;> subst h <;> simp
    · have : i = 8 ∨ i = 9 ∨ i = 10 ∨ i = 11 ∨ i = 12 ∨ i = 13 ∨ i = 14 ∨ i = 15 := by omega
      rcases this with h | h | h | h | h | h | h | h <;> subst h <;> simp
    · subst h
      simp
  simpa using congrArg BitVec.toNat h

/-- A read's bits 7:0 and 16 are 0. -/
theorem hostRead_w (a : Byte) : (0#1 ++ a ++ 0#8).toNat &&& 0x100FF = 0 := by
  revert a
  decide

/-- The id of a function word stands in bits 7:0. -/
theorem funcWord_id (hi : BitVec 16) (a id : Byte) : (hi ++ a ++ id).toNat &&& 0xFF = id.toNat := by
  simp only [BitVec.toNat_append]
  rw [show (0xFF : Nat) = 2 ^ 8 - 1 from rfl, Nat.and_two_pow_sub_one_eq_mod, Nat.or_mod_two_pow]
  have := id.isLt
  simp [Nat.shiftLeft_eq]
  omega

/-- EXPAND_KEY. -/
theorem expandKey : Statement (.expandKey) := rfl

/-- ECB_ENC. -/
theorem ecbEnc : Statement (.ecbEnc) := rfl

/-- ECB_DEC. -/
theorem ecbDec : Statement (.ecbDec) := rfl

/-- CBC_ENC. -/
theorem cbcEnc : Statement (.cbcEnc) := rfl

/-- CBC_DEC. -/
theorem cbcDec : Statement (.cbcDec) := rfl

/-- SEED. -/
theorem seed : Statement (.seed) := rfl

/-- HOST_WR. -/
theorem hostWr (a d : Byte) : Statement (.hostWr a d) := hostWord_w 1#1 a d

/-- HOST_RD. -/
theorem hostRd (a : Byte) : Statement (.hostRd a) := hostRead_w a

/-- KEY_COPY. -/
theorem keyCopy : Statement (.keyCopy) := rfl

/-- KEY_WORD. -/
theorem keyWord (i : Fin 44) : Statement (.keyWord i) := by
  revert i
  unfold Statement
  decide

/-- SUB_BYTES. -/
theorem subBytes (x : Target) : Statement (.subBytes x) := by
  cases x <;> rfl

/-- INV_SUB_BYTES. -/
theorem invSubBytes (x : Target) : Statement (.invSubBytes x) := by
  cases x <;> rfl

/-- SHIFT_ROWS. -/
theorem shiftRows (x : Target) : Statement (.shiftRows x) := by
  cases x <;> rfl

/-- INV_SHIFT_ROWS. -/
theorem invShiftRows (x : Target) : Statement (.invShiftRows x) := by
  cases x <;> rfl

/-- MIX_COLUMNS. -/
theorem mixColumns (x : Target) : Statement (.mixColumns x) := by
  cases x <;> rfl

/-- INV_MIX_COLUMNS. -/
theorem invMixColumns (x : Target) : Statement (.invMixColumns x) := by
  cases x <;> rfl

/-- ADD_ROUND_KEY. -/
theorem addRoundKey (x : Target) (k : KeySel) : Statement (.addRoundKey x k) := by
  cases k with
  | round n => revert n; unfold Statement; cases x <;> decide
  | scratch => cases x <;> rfl

/-- XOR_IV. -/
theorem xorIv (x : Target) : Statement (.xorIv x) := by
  cases x <;> rfl

/-- ROUND. -/
theorem round (x : Target) (k : KeySel) : Statement (.round x k) := by
  cases k with
  | round n => revert n; unfold Statement; cases x <;> decide
  | scratch => cases x <;> rfl

/-- LAST_ROUND. -/
theorem lastRound (x : Target) (k : KeySel) : Statement (.lastRound x k) := by
  cases k with
  | round n => revert n; unfold Statement; cases x <;> decide
  | scratch => cases x <;> rfl

/-- FIRST_INV_ROUND. -/
theorem firstInvRound (x : Target) (k : KeySel) : Statement (.firstInvRound x k) := by
  cases k with
  | round n => revert n; unfold Statement; cases x <;> decide
  | scratch => cases x <;> rfl

/-- INV_ROUND. -/
theorem invRound (x : Target) (k : KeySel) : Statement (.invRound x k) := by
  cases k with
  | round n => revert n; unfold Statement; cases x <;> decide
  | scratch => cases x <;> rfl

/-- IDLE. -/
theorem idle : Statement (.idle) := rfl

/-- DELAY. -/
theorem delay (c : DelayClass) : Statement (.delay c) := by
  cases c <;> rfl

/-- DECOY_GROUP. -/
theorem decoyGroup (kind : RoundKind) (x : Target) (n : Fin 11) : Statement (.decoyGroup kind x n) := by
  revert n
  unfold Statement
  cases kind <;> cases x <;> decide

/-- DECOY_FILL. -/
theorem decoyFill : Statement (.decoyFill) := rfl

/-- DFA_SNAPSHOT. -/
theorem dfaSnapshot : Statement (.dfaSnapshot) := rfl

/-- DFA_COMPARE. -/
theorem dfaCompare : Statement (.dfaCompare) := rfl

/-- DUAL. -/
theorem dual : Statement (.dual) := rfl

/-- PRNG_SEED. -/
theorem prngSeed : Statement (.prngSeed) := rfl

/-- SBOX_LOOKUP. -/
theorem sboxLookup (b : Byte) : Statement (.sboxLookup b) := funcWord_id 0#16 b 0x40#8

/-- INV_SBOX_LOOKUP. -/
theorem invSboxLookup (b : Byte) : Statement (.invSboxLookup b) := funcWord_id 0#16 b 0x41#8

/-- GF_MUL. -/
theorem gfMul (a b poly : Byte) : Statement (.gfMul a b poly) := funcWord_id (poly ++ b) a 0x42#8

end Sys2Proof.Laws.OpcodeRow
end

