-- ==== Sys2Proof/Tests/Slice0.lean ====
section
/-!
SUPPORT. Small checks of the model: ill-formed terms are refused; words written out from the spec's encodings decode to
the instructions they stand for; one step gives the spec's own vectors (95_test_vectors); and, for every statement with
hypotheses, a concrete state that meets them.
-/
namespace Sys2Proof.Machine

/-! ### Helpers -/

/-- Sixteen bytes written as one number, byte 0 first (R53). -/
def blockOf (n : Nat) : Block := Vector.ofFn fun j => BitVec.ofNat 8 (n >>> (8 * (15 - j.val)))

/-- A build from its CONFIG bits 3:0 (R29). -/
def buildOf (b : BitVec 4) : Config.BuildFlags :=
  { encEn := b.getLsbD 0, rdelayEn := b.getLsbD 1, dummyEn := b.getLsbD 2, antidfaEn := b.getLsbD 3 }

/-- Every byte written. -/
def allWritten : WrittenBits :=
  { state := Vector.replicate 16 true, iv := Vector.replicate 16 true, key := Vector.replicate 16 true,
    sched := Vector.replicate 176 true, seed := Vector.replicate 4 true }

/-- The key of V1. -/
def keyV1 : Block := blockOf 0x000102030405060708090a0b0c0d0e0f

/-- A core of the build `b` with every byte written, STATE = `x`, KEY and round key 0 the key of V1, the rest 0. -/
def loaded (b : BitVec 4) (x : Nat) : State :=
  { State.resetOf (buildOf b) with
    written := allWritten, state := blockOf x, key := keyV1, sched := setRoundKey0 (Vector.replicate 176 0) keyV1 }

/-- `s` while a command runs with the list `l` still to perform. -/
def running (c : Command) (l : List Instr) (s : State) : State := { s with seq := .running c l }

/-- One field of the next state. -/
def after {α : Type} (o : Result) (f : State → α) : Option α :=
  match o with
  | .next t => some (f t)
  | .fault _ => none
  | .refused _ => none

/-- Where a field of the next state can be read off, there is a next state. -/
theorem next_of_after {α : Type} {o : Result} {f : State → α} {v : α} (h : after o f = some v) :
    ∃ t, o = .next t ∧ f t = v := by
  unfold after at h
  split at h
  · exact ⟨_, rfl, Option.some.inj h⟩
  · cases h
  · cases h

/-! ### WellFormed refuses each kind of ill-formed term (R77, R78, R150) -/

theorem test_wf_keyWord : Instr.wf (.keyWord 3) = false ∧ Instr.wf (.keyWord 4) = true := by decide
theorem test_wf_xorIv : Instr.wf (.xorIv .scrState) = false ∧ Instr.wf (.xorIv .dfaCopy) = true := by decide
theorem test_wf_round : Instr.wf (.round .state (.round 0)) = false ∧ Instr.wf (.round .state (.round 10)) = false ∧
    Instr.wf (.round .state (.round 9)) = true := by decide
theorem test_wf_lastRound : Instr.wf (.lastRound .state (.round 9)) = false ∧
    Instr.wf (.lastRound .scrState .scratch) = true := by decide
theorem test_wf_firstInvRound : Instr.wf (.firstInvRound .state (.round 9)) = false ∧
    Instr.wf (.firstInvRound .state (.round 10)) = true := by decide
theorem test_wf_invRound : Instr.wf (.invRound .state (.round 10)) = false ∧
    Instr.wf (.invRound .state (.round 1)) = true := by decide
theorem test_wf_decoyGroup_target : Instr.wf (.decoyGroup .round .scrState 4) = false := by decide
theorem test_wf_decoyGroup_index : Instr.wf (.decoyGroup .round .state 10) = false ∧
    Instr.wf (.decoyGroup .lastRound .state 10) = true := by decide

/-! ### Every constructor's word, written out from R71, R74, R77, R78, R80 -/

theorem test_decode_expandKey : decode (.cmd 0b00000001#8) = .ok .expandKey := by rfl
theorem test_decode_ecbEnc : decode (.cmd 0b00000010#8) = .ok .ecbEnc := by rfl
theorem test_decode_ecbDec : decode (.cmd 0b00000011#8) = .ok .ecbDec := by rfl
theorem test_decode_cbcEnc : decode (.cmd 0b00000100#8) = .ok .cbcEnc := by rfl
theorem test_decode_cbcDec : decode (.cmd 0b00000101#8) = .ok .cbcDec := by rfl
theorem test_decode_seed : decode (.cmd 0b00000110#8) = .ok .seed := by rfl
theorem test_decode_hostWr : decode (.host 0b1_00100001_10100101#17) = .ok (.hostWr 0x21 0xa5) := by rfl
theorem test_decode_hostRd : decode (.host 0b0_11101111_00000000#17) = .ok (.hostRd 0xef) := by rfl
theorem test_decode_keyCopy : decode (.ustep 0b01010000_00_000000#16) = .ok .keyCopy := by rfl
theorem test_decode_keyWord : decode (.ustep 0b01010001_00_101011#16) = .ok (.keyWord 43) := by rfl
theorem test_decode_subBytes : decode (.ustep 0b01100000_00_000000#16) = .ok (.subBytes .state) := by rfl
theorem test_decode_invSubBytes : decode (.ustep 0b01100001_10_000000#16) = .ok (.invSubBytes .scrState) := by rfl
theorem test_decode_shiftRows : decode (.ustep 0b01100010_01_000000#16) = .ok (.shiftRows .dfaCopy) := by rfl
theorem test_decode_invShiftRows : decode (.ustep 0b01100011_00_000000#16) = .ok (.invShiftRows .state) := by rfl
theorem test_decode_mixColumns : decode (.ustep 0b01100100_10_000000#16) = .ok (.mixColumns .scrState) := by rfl
theorem test_decode_invMixColumns : decode (.ustep 0b01100101_01_000000#16) = .ok (.invMixColumns .dfaCopy) := by rfl
theorem test_decode_addRoundKey : decode (.ustep 0b01100110_01_001010#16) = .ok (.addRoundKey .dfaCopy (.round 10)) := by
  rfl
theorem test_decode_xorIv : decode (.ustep 0b01100111_01_000000#16) = .ok (.xorIv .dfaCopy) := by rfl
theorem test_decode_round : decode (.ustep 0b01110000_10_111111#16) = .ok (.round .scrState .scratch) := by rfl
theorem test_decode_lastRound : decode (.ustep 0b01110001_00_001010#16) = .ok (.lastRound .state (.round 10)) := by
  rfl
theorem test_decode_firstInvRound : decode (.ustep 0b01110010_01_001010#16) = .ok (.firstInvRound .dfaCopy (.round 10)) := by
  rfl
theorem test_decode_invRound : decode (.ustep 0b01110011_00_000001#16) = .ok (.invRound .state (.round 1)) := by rfl
theorem test_decode_idle : decode (.ustep 0b10000000_00_000000#16) = .ok .idle := by rfl
theorem test_decode_delay : decode (.ustep 0b10000001_00_000001#16) = .ok (.delay .long) := by rfl
theorem test_decode_decoyGroup :
    decode (.ustep24 0b10000010_01_000100_01110011#24) = .ok (.decoyGroup .invRound .dfaCopy 4) := by rfl
theorem test_decode_decoyFill : decode (.ustep 0b10000011_00_000000#16) = .ok .decoyFill := by rfl
theorem test_decode_dfaSnapshot : decode (.ustep 0b10000100_00_000000#16) = .ok .dfaSnapshot := by rfl
theorem test_decode_dfaCompare : decode (.ustep 0b10000101_00_000000#16) = .ok .dfaCompare := by rfl
theorem test_decode_dual : decode (.ustep 0b10000110_00_000000#16) = .ok .dual := by rfl
theorem test_decode_prngSeed : decode (.ustep 0b10000111_00_000000#16) = .ok .prngSeed := by rfl
theorem test_decode_sboxLookup : decodeTableWord 32 0x5340 = some (.sboxLookup 0x53) := by rfl
theorem test_decode_invSboxLookup : decodeTableWord 32 0xed41 = some (.invSboxLookup 0xed) := by rfl
theorem test_decode_gfMul : decodeTableWord 32 0x1b835742 = some (.gfMul 0x57 0x83 0x1b) := by rfl

/-! ### Words the tables leave out are refused by name -/

theorem test_refuse_reserved_command : decode (.cmd 0x07#8) = .error (.reservedCommand 0x07) := by rfl
theorem test_refuse_op : decode (.ustep 0x5200#16) = .error (.unknownOp 0x52) := by rfl
theorem test_refuse_target : decode (.ustep 0x60c0#16) = .error .targetNeverProduced := by rfl
theorem test_refuse_wrong_target : decode (.ustep 0x6780#16) = .error .wrongTarget := by rfl
theorem test_refuse_unused : decode (.ustep 0x8001#16) = .error .unusedFieldSet := by rfl
theorem test_refuse_operand : decode (.ustep 0x5103#16) = .error (.operandOutOfRange 3) := by rfl
theorem test_refuse_kind : decode (.ustep24 0x820464#24) = .error (.notARoundKind 0x64) := by rfl
theorem test_refuse_function : decode (.func 0x43#32) = .error (.unknownFunction 0x43) := by rfl

/-! ### The register map where its ranges meet (R52) -/

theorem test_map_edges :
    locate 0x0f = .data (.state 15) ∧ locate 0x10 = .data (.iv 0) ∧ locate 0x1f = .data (.iv 15) ∧
    locate 0x20 = .data (.key 0) ∧ locate 0x2f = .data (.key 15) ∧ locate 0x30 = .data (.seed 0) ∧
    locate 0x33 = .data (.seed 3) ∧ locate 0x34 = .cmd ∧ locate 0x35 = .status ∧ locate 0x36 = .config ∧
    locate 0x37 = .reserved ∧ locate 0x3f = .reserved ∧ locate 0x40 = .data (.sched 0) ∧
    locate 0xef = .data (.sched 175) ∧ locate 0xf0 = .reserved ∧ locate 0xff = .reserved := by decide

/-! ### One step against the spec's vectors -/

/-- V2, pass 1 of round 1. -/
theorem test_subBytes : after (exec (.subBytes .state) (loaded 1 0x00102030405060708090a0b0c0d0e0f0)) State.state =
    some (blockOf 0x63cab7040953d051cd60e0e7ba70e18c) := rfl
/-- V30. -/
theorem test_invSubBytes : after (exec (.invSubBytes .state) (loaded 1 0x637c777bf26b6fc53001672bfed7ab76)) State.state =
    some (blockOf 0x000102030405060708090a0b0c0d0e0f) := rfl
/-- V31. -/
theorem test_shiftRows : after (exec (.shiftRows .state) (loaded 1 0x000102030405060708090a0b0c0d0e0f)) State.state =
    some (blockOf 0x00050a0f04090e03080d02070c01060b) := rfl
/-- V31. -/
theorem test_invShiftRows : after (exec (.invShiftRows .state) (loaded 1 0x000102030405060708090a0b0c0d0e0f))
    State.state = some (blockOf 0x000d0a0704010e0b0805020f0c090603) := rfl
/-- V32, four columns at once. -/
theorem test_mixColumns : after (exec (.mixColumns .state) (loaded 1 0xdb135345f20a225cd4d4d4d52d26314c)) State.state =
    some (blockOf 0x8e4da1bc9fdc589dd5d5d7d64d7ebdf8) := rfl
/-- V32. -/
theorem test_invMixColumns : after (exec (.invMixColumns .state) (loaded 1 0x8e4da1bc9fdc589dd5d5d7d64d7ebdf8))
    State.state = some (blockOf 0xdb135345f20a225cd4d4d4d52d26314c) := rfl
/-- V2, its first step. -/
theorem test_addRoundKey :
    after (exec (.addRoundKey .state (.round 0)) (loaded 1 0x00112233445566778899aabbccddeeff)) State.state =
      some (blockOf 0x00102030405060708090a0b0c0d0e0f0) := by decide +kernel
/-- R136: `k = 0x3F` reads SCR_KEY, and a decoy's target is SCR_STATE. -/
theorem test_addRoundKey_scratch :
    after (exec (.addRoundKey .scrState .scratch) { loaded 1 0 with scrKey := keyV1 }) (fun t => (t.scrState, t.state)) =
      some (keyV1, zeroBlock) := rfl
/-- R150's example. -/
theorem test_xorIv :
    after (exec (.xorIv .state)
      { loaded 1 0x00112233445566778899aabbccddeeff with iv := blockOf 0x0f0e0d0c0b0a09080706050403020100 })
      State.state = some (blockOf 0x0f1f2f3f4f5f6f7f8f9fafbfcfdfefff) := rfl
/-- R123's example. -/
theorem test_keyCopy :
    after (exec .keyCopy { loaded 1 0 with key := blockOf 0x00112233445566778899aabbccddeeff })
      (fun t => roundKey t.sched 0) = some (blockOf 0x00112233445566778899aabbccddeeff) := by decide +kernel
/-- V22, i = 4. -/
theorem test_keyWord_4 : after (exec (.keyWord 4) (loaded 1 0)) (fun t => wordAt t.sched 4) =
    some #v[0xd6, 0xaa, 0x74, 0xfd] := by decide +kernel
/-- V22, i = 5: a plain exclusive-or. -/
theorem test_keyWord_5 :
    after (exec (.keyWord 5) { loaded 1 0 with sched := setWord (loaded 1 0).sched 4 #v[0xd6, 0xaa, 0x74, 0xfd] })
      (fun t => wordAt t.sched 5) = some #v[0xd2, 0xaf, 0x72, 0xfa] := by decide +kernel
/-- R140. -/
theorem test_round :
    after (exec (.round .state (.round 1)) (running .ecbEnc [.idle] (loaded 1 0))) State.seq =
      some (.running .ecbEnc [.subBytes .state, .shiftRows .state, .mixColumns .state,
        .addRoundKey .state (.round 1), .idle]) := rfl
/-- R141, and R173's padding with RDELAY_EN. -/
theorem test_lastRound :
    after (exec (.lastRound .dfaCopy (.round 10)) (running .ecbEnc [] (loaded 3 0))) State.seq =
      some (.running .ecbEnc [.delay .short, .subBytes .dfaCopy, .delay .short, .delay .short, .shiftRows .dfaCopy,
        .delay .short, .delay .short, .addRoundKey .dfaCopy (.round 10), .delay .short]) := rfl
/-- R142. -/
theorem test_firstInvRound :
    after (exec (.firstInvRound .state (.round 10)) (running .ecbDec [] (loaded 0 0))) State.seq =
      some (.running .ecbDec [.addRoundKey .state (.round 10), .invShiftRows .state, .invSubBytes .state]) := rfl
/-- R143, for a decoy. -/
theorem test_invRound :
    after (exec (.invRound .scrState .scratch) (running .ecbDec [] (loaded 4 0))) State.seq =
      some (.running .ecbDec [.addRoundKey .scrState .scratch, .invMixColumns .scrState, .invShiftRows .scrState,
        .invSubBytes .scrState]) := rfl
/-- R171: BUSY stays 1. -/
theorem test_idle : after (exec .idle (running .ecbDec [.idle] (loaded 2 0))) State.statusByte = some 0x01 := rfl
/-- R175's example: cnt = 3, pos = 1. -/
theorem test_decoyGroup_layout : groupExpansion .round .state 4 3 1 =
    [.decoyFill, .round .scrState .scratch, .round .state (.round 4), .decoyFill, .round .scrState .scratch] := by
  decide
/-- R176: STATE is no scratch buffer. -/
theorem test_decoyFill : after (exec .decoyFill (loaded 4 5)) State.state = some (blockOf 5) := rfl
/-- R181. -/
theorem test_dfaSnapshot : after (exec .dfaSnapshot (loaded 8 5)) State.dfaCopy = some (blockOf 5) := rfl
/-- R182: a match keeps STATE. -/
theorem test_dfaCompare_match : after (exec .dfaCompare { loaded 8 5 with dfaCopy := blockOf 5 })
    (fun t => (t.state, t.mismatch)) = some (blockOf 5, 0) := rfl
/-- V50: one differing bit zeroes STATE. -/
theorem test_dfaCompare_mismatch :
    after (exec .dfaCompare
      { loaded 8 0x69c4e0d86a7b0430d8cdb78070b4c55a with dfaCopy := blockOf 0x69c4e0d86a7b0430d8cdb78070b4c55b })
      (fun t => (t.state, t.mismatch)) = some (zeroBlock, 1) := rfl
/-- R181's count: 1 + 11 + 1 + 11 + 1 entries. -/
theorem test_dual : after (exec .dual (running .ecbEnc [] (loaded 9 0)))
    (fun t => match t.seq with | .running _ l => (l.length, l.head?) | .idle => (0, none)) =
      some (25, some .dfaSnapshot) := rfl
/-- V10. -/
theorem test_gfMul : after (exec (.gfMul 0x57 0x83 0x1b) (loaded 0 0)) State.fnOut = some 0xc1 ∧
    gfMul 0xff 0xff 0x00 = 0x55 := ⟨rfl, rfl⟩
/-- V12. -/
theorem test_sboxLookup : after (exec (.sboxLookup 0x53) (loaded 0 0)) State.fnOut = some 0xed := rfl
/-- V12. -/
theorem test_invSboxLookup : after (exec (.invSboxLookup 0x63) (loaded 0 0)) State.fnOut = some 0x00 := rfl
/-- R56: a host write of one byte, and its `written` bit. -/
theorem test_hostWr : after (exec (.hostWr 0x0f 0xa5) State.reset) (fun t => (t.stored 0x0f, t.stored 0x0e)) =
    some (some 0xa5, none) := rfl
/-- R57: a write while busy is a model fault and stores nothing. -/
theorem test_hostWr_busy :
    after (exec (.hostWr 0x34 0x06) (running .ecbDec [.idle] (loaded 0 0))) (fun t => (t.faults, t.seq)) =
      some ([.hostWriteWhileBusy 0x34 0x06], .running .ecbDec [.idle]) := rfl
/-- R55: CONFIG of the build with ENC_EN and ANTIDFA_EN reads 0x09. -/
theorem test_hostRd_config : after (exec (.hostRd 0x36) (loaded 9 0)) State.readData = some 0x09 := rfl
/-- R57: STATUS reads 0x01 while busy. -/
theorem test_hostRd_status : after (exec (.hostRd 0x35) (running .seed [.prngSeed] (loaded 0 0))) State.readData =
    some 0x01 := rfl
/-- R122: 41 micro-steps, KEY_COPY first. -/
theorem test_expandKey : after (exec .expandKey (loaded 0 0))
    (fun t => match t.seq with | .running _ l => (l.length, l.head?, l.getLast?) | .idle => (0, none, none)) =
      some (41, some .keyCopy, some (.keyWord 43)) := rfl
/-- R72: ECB_ENC and CBC_ENC are absent without ENC_EN, and set `refused`. -/
theorem test_absent_command : after (exec .ecbEnc (loaded 0 0)) (fun t => (t.refused, t.busy)) = some (true, false) ∧
    after (exec .cbcEnc (loaded 0 0)) (fun t => (t.refused, t.busy)) = some (true, false) := ⟨rfl, rfl⟩
/-- R72: a write of a reserved value to CMD while idle sets `refused`, in a build with ENC_EN too, and starts nothing. -/
theorem test_reserved_command :
    let f := fun t : State => (t.refused, t.busy, t.faults)
    after (exec (.hostWr 0x34 0x00) (loaded 0 0)) f = some (true, false, []) ∧
    after (exec (.hostWr 0x34 0x07) (loaded 1 0)) f = some (true, false, []) ∧
    after (exec (.hostWr 0x34 0xFF) (loaded 1 0)) f = some (true, false, []) := ⟨rfl, rfl, rfl⟩
/-- R153, R154: where XOR_IV stands. -/
theorem test_cbc_lists :
    after (exec .cbcEnc (loaded 1 0)) (fun t => match t.seq with | .running _ l => l.head? | .idle => none) =
      some (some (.xorIv .state)) ∧
    after (exec .cbcDec (loaded 1 0)) (fun t => match t.seq with | .running _ l => l.getLast? | .idle => none) =
      some (some (.xorIv .state)) := ⟨rfl, rfl⟩
/-- R152: the first entry of DecBody. -/
theorem test_ecbDec : after (exec .ecbDec (loaded 1 0))
    (fun t => match t.seq with | .running _ l => l.head? | .idle => none) =
      some (some (.firstInvRound .state (.round 10))) := rfl
/-- R156. -/
theorem test_seed : after (exec .seed (loaded 15 0)) State.seq = some (.running .seed [.prngSeed]) := rfl
/-- R205: an unwritten STATE is read with one model fault per byte, in order, and the pass completes. -/
theorem test_unwritten_read :
    after (exec (.subBytes .state) { loaded 0 0 with written := { allWritten with
      state := (Vector.replicate 16 true).set 3 false } }) State.faults = some [.unwrittenRead .state 3] := rfl
/-- R76: the last micro-step makes the sequencer Idle in the same step. -/
theorem test_last_step_ends : after (step (running .ecbDec [.subBytes .state] (loaded 0 0))) State.busy =
    some false := rfl
/-- V2, round 1. -/
theorem test_roundFn : roundFn (blockOf 0x00102030405060708090a0b0c0d0e0f0) (blockOf 0xd6aa74fdd2af72fadaa678f1d6ab76fe) =
    blockOf 0x89d810e8855ace682d1843d8cb128fe4 := rfl
/-- V2, round 10. -/
theorem test_lastRoundFn :
    lastRoundFn (blockOf 0xbd6e7c3df2b5779e0b61216e8b10b689) (blockOf 0x13111d7fe3944a17f307a78b4d2b30c5) =
      blockOf 0x69c4e0d86a7b0430d8cdb78070b4c55a := rfl
/-- V3, the first inverse round. -/
theorem test_firstInvRoundFn :
    firstInvRoundFn (blockOf 0x69c4e0d86a7b0430d8cdb78070b4c55a) (blockOf 0x13111d7fe3944a17f307a78b4d2b30c5) =
      blockOf 0xbd6e7c3df2b5779e0b61216e8b10b689 := rfl
/-- V3, inverse round 9. -/
theorem test_invRoundFn :
    invRoundFn (blockOf 0xbd6e7c3df2b5779e0b61216e8b10b689) (blockOf 0x549932d1f08557681093ed9cbe2c974e) =
      blockOf 0xfde3bad205e5d0d73547964ef1fe37f1 := rfl

/-! ### Placing a word (the first instruction after reset) -/

/-- A command byte, a transaction, a micro-step, a 24-bit word and a function, each run by the very next step. -/
theorem test_withFetchWord :
    after (step (State.reset.withFetchWord 8 0x01)) State.busy = some true ∧
    after (step (State.reset.withFetchWord 17 0x120a5)) (fun t => t.key[0]) = some 0xa5 ∧
    after (step (State.reset.withFetchWord 16 0x8400)) (fun t => t.faults.length) = some 16 ∧
    after (step (State.reset.withFetchWord 16 0x700a)) State.draws = some 0 ∧
    after (step (State.reset.withFetchWord 8 0x42)) State.fnOut = some 0x00 := ⟨rfl, rfl, rfl, rfl, rfl⟩

/-! ### Witnesses: for each statement with hypotheses, states and operands that meet them together -/

/-- EncodedInstructionsDecodeBack, at the ends of the operand ranges. -/
theorem test_witness_encode : Instr.wf (.keyWord 4) = true ∧ Instr.wf (.keyWord 43) = true ∧
    Instr.wf (.round .scrState .scratch) = true ∧ Instr.wf (.decoyGroup .firstInvRound .dfaCopy 10) = true ∧
    Instr.wf (.hostWr 0xff 0xff) = true := by decide

/-- DecodedWordsAreWellFormedAndUnique: a word that is the encoder's, and a read with data bits, which is not. -/
theorem test_witness_decoded : decode (.ustep 0x7109#16) ≠ .ok .idle ∧ decode (.ustep 0x710a#16) = .ok
    (.lastRound .state (.round 10)) ∧ decode (.host 0x035a5#17) = .ok (.hostRd 0x35) ∧
    encode (.hostRd 0x35) ≠ .host 0x035a5#17 := by
  refine ⟨nofun, rfl, rfl, by decide⟩

/-- StepRunsTheTurnsInstruction: a transaction line, a polling line, a micro-step. -/
theorem test_witness_turns :
    let a := { State.reset with host := [.txn 0x03500#17] }
    let b := { State.reset with host := [.wait], turns := [.host] }
    let c := running .seed [.prngSeed] State.reset
    (a.nextTurn = .host ∧ a.host = .txn 0x03500#17 :: []) ∧ (b.nextTurn = .host ∧ b.host = .wait :: []) ∧
      (c.nextTurn = .core ∧ c.seq = .running .seed (.prngSeed :: [])) ∧
      { a with readData := 0x01 }.readData.getLsbD 0 = true ∧ { a with readData := 0xfe }.readData.getLsbD 0 = false := by
  decide

/-- R83: a poll that reads BUSY = 1 keeps the line, one that reads 0 drops it. -/
theorem test_wait :
    after (step { running .seed [.prngSeed] State.reset with host := [.wait], turns := [.host] }) State.host =
      some [.wait] ∧ after (step { State.reset with host := [.wait] }) State.host = some [] := ⟨rfl, rfl⟩

/-- StepRunsThePlacedWord: a command, a transaction and a function; a micro-step of each width, at Idle. -/
theorem test_witness_placed :
    (decodeTableWord 8 0x06 = some .seed ∧ encode .seed = .cmd 0x06) ∧
    (decodeTableWord 17 0x120a5 = some (.hostWr 0x20 0xa5) ∧ encode (.hostWr 0x20 0xa5) = .host 0x120a5#17) ∧
    (decodeTableWord 8 0x40 = some (.sboxLookup 0) ∧ encode (.sboxLookup 0) = .func 0x40#32) ∧
    (decodeTableWord 16 0x6000 = some (.subBytes .state) ∧ encode (.subBytes .state) = .ustep 0x6000#16) ∧
    (decodeTableWord 24 0x820470 = some (.decoyGroup .round .state 4) ∧
      encode (.decoyGroup .round .state 4) = .ustep24 0x820470#24) ∧ State.reset.seq = .idle := by decide

/-- EveryStepKeepsTheSequencerInvariant, NoStepChangesConfig, GhostsAreNeverCleared: a step while a command runs. -/
theorem test_witness_step :
    (running .ecbDec [.invSubBytes .state] (loaded 0 0)).seqOk = true ∧
      ∃ t, step (running .ecbDec [.invSubBytes .state] (loaded 0 0)) = .next t ∧ t.busy = false :=
  ⟨by decide, next_of_after (by decide +kernel)⟩

/-- NoTurnOfTheCoreOrHostStops: each of the three turns, under the invariant. -/
theorem test_witness_noStop :
    let c := running .seed [.prngSeed] State.reset
    let r := { State.reset with turns := [.reset] }
    (State.reset.seqOk = true ∧ State.reset.nextTurn = .host) ∧ (c.seqOk = true ∧ c.nextTurn = .core) ∧
      (r.seqOk = true ∧ r.nextTurn = .reset) := by decide

/-- EveryCommandEnds: a command in mid-run. -/
theorem test_witness_ends :
    let s := running .cbcDec [.invSubBytes .state, .xorIv .state] (loaded 0 0)
    s.seqOk = true ∧ s.turns = [] := by decide

/-- EnvironmentResetForgetsTheBuffers: a reset while a command runs, and a data-buffer address. -/
theorem test_witness_reset :
    { running .seed [.prngSeed] State.reset with turns := [.reset] }.nextTurn = .reset ∧
      locate 0x33 = .data (.seed 3) := by decide

/-- CorruptionReplacesOneByte: no event under `none`, one under OnePerCommand but no second, any under Any, and under any
other model what its predicate says. -/
theorem test_witness_corrupt :
    let s := { running .seed [.prngSeed] State.reset with turns := [.corrupt (.dfaCopy 0) 1] }
    (s.nextTurn = .corrupt (.dfaCopy 0) 1 ∧ s.seqOk = true ∧ s.faultModel = .none) ∧
      s.admitsInjection (.dfaCopy 0) 1 = false ∧
      { s with faultModel := .onePerCommand }.admitsInjection (.dfaCopy 0) 1 = true ∧
      { s with faultModel := .onePerCommand, injections := 1 }.admitsInjection (.dfaCopy 0) 1 = false ∧
      { s with faultModel := .any, injections := 1 }.admitsInjection (.dfaCopy 0) 1 = true := by decide

/-- R190: another fault model sees the event and the run so far. -/
theorem test_given_fault_model :
    { State.reset with faultModel := .given, past := [.core .prngSeed] }.admitsInjection (.data (.key 3)) 7 =
      Config.givenFaultModel Config.defaultBuild [.core .prngSeed] (.data (.key 3)) 7 := rfl

/-- R190: the run so far of two steps, newest first. -/
theorem test_past :
    after (Host.Core.run core 2 { State.reset with host := [.txn 0x13406#17] }) State.past =
      some [.core .prngSeed, .host 0x13406#17] := rfl

/-- CommandWriteIsAcceptedOrRefused and CommandInstructionsIssueTheirByte: present, absent and busy. -/
theorem test_witness_command :
    State.reset.busy = false ∧ commandPresent State.reset.config .ecbDec = true ∧
      commandPresent State.reset.config .ecbEnc = false ∧ (loaded 1 0).config.encEn = true ∧
      (loaded 1 0).busy = false ∧ (running .seed [.prngSeed] State.reset).busy = true := by decide

/-- BaseCommandLists: the default build. -/
theorem test_witness_base : Config.defaultBuild.rdelayEn = false ∧ Config.defaultBuild.dummyEn = false ∧
    Config.defaultBuild.antidfaEn = false := by decide

/-- IdleHostWriteStoresOneByte, IdleHostReadReturnsTheByte, HostReadsBackWhatItWrote: written and unwritten bytes, and
each other kind of address. -/
theorem test_witness_idle_host :
    State.reset.busy = false ∧ locate 0xef = .data (.sched 175) ∧ State.reset.isWritten (.sched 175) = false ∧
      (loaded 0 0).busy = false ∧ (loaded 0 0).isWritten (.sched 175) = true ∧ locate 0x34 = .cmd ∧
      locate 0x35 = .status ∧ locate 0x36 = .config ∧ locate 0x37 = .reserved := by decide +kernel

/-- BusyHostAccesses: each kind of address while a command runs. -/
theorem test_witness_busy_host :
    (running .seed [.prngSeed] State.reset).busy = true ∧ locate 0x35 = .status ∧ locate 0x36 = .config ∧
      locate 0x00 = .data (.state 0) ∧ locate 0x34 = .cmd ∧ locate 0xff = .reserved := by decide

/-- HostAccessNeverReachesHiddenState: both accesses answer. -/
theorem test_witness_hidden : (∃ t, exec (.hostRd 0x35) State.reset = .next t) ∧
    ∃ t, exec (.hostWr 0x34 0x01) State.reset = .next t := ⟨⟨_, rfl⟩, ⟨_, rfl⟩⟩

/-- RoundKindsExpandToTheirPasses, DelayExpandsToIdleTicks, DecoyGroupHasOneRealInvocation: a running list; a target and
a key that can be read, of both kinds. -/
theorem test_witness_round :
    (running .ecbDec [.idle] State.reset).seq = .running .ecbDec [.idle] ∧
      ((loaded 0 0).targetReady .state ∧ (loaded 0 0).keyReady (.round 10)) ∧
      (State.reset.targetReady .scrState ∧ State.reset.keyReady .scratch) :=
  ⟨rfl, ⟨fun _ => rfl, by decide +kernel⟩, nofun, trivial⟩

/-- DecoysTouchOnlyTheScratchBuffers: a group of three with the real invocation last. -/
theorem test_witness_group : 2 < 3 ∧ Target.dfaCopy ≠ .scrState ∧ (loaded 0 0).targetReady .dfaCopy ∧
    (loaded 0 0).keyReady (.round 0) := ⟨by decide, by decide, nofun, by decide +kernel⟩

/-- KeyWordComputesOneWord: both ends of the range, a multiple of 4 and not, and an index below it. -/
theorem test_witness_keyWord : 4 ≤ (4 : Fin 44).val ∧ 4 ≤ (43 : Fin 44).val ∧ (40 : Fin 44).val % 4 = 0 ∧
    (43 : Fin 44).val % 4 ≠ 0 ∧ (3 : Fin 44).val < 4 ∧ (43 : Fin 176).val / 4 ≠ (11 : Fin 44).val ∧
    (16 : Fin 176).val ≥ 16 := by decide

/-- KeyExpandSatisfiesTheRecurrence and TablesMatchTheirGenerators: the ends of the index ranges, an inverse pair of
V10. -/
theorem test_witness_tables : 4 ≤ (4 : Fin 44).val ∧ 4 ≤ (43 : Fin 44).val ∧ gfMul 0x53 0xca 0x1b = 0x01 ∧
    (1 ≤ (9 : Fin 12).val ∧ (9 : Fin 12).val ≤ 9) := by decide +kernel

/-- ExpandKeyWritesTheSchedule, SeedCommandSeedsTheGenerator: Idle, nothing scheduled, the inputs written. -/
theorem test_witness_expand :
    let s := loaded 15 0
    s.seq = .idle ∧ s.turns = [] ∧ s.keyWritten ∧ s.seedWritten := ⟨rfl, rfl, rfl, rfl⟩

/-- CipherCommandsAreTransparent, BaseCipherStepCounts: every cipher command in a build that has it, with host turns
scheduled and with none. -/
theorem test_witness_cipher :
    let s := { loaded 15 0 with turns := [.host, .core, .host], host := [.wait] }
    (∀ c : Command, c.isCipher = true → commandPresent s.config c = true ∧ s.inputsWritten c) ∧
      s.seq = .idle ∧ s.onlyHostAndCore ∧ .host ∉ (loaded 15 0).turns ∧ (loaded 15 0).turns = [] ∧
      commandPresent (loaded 1 0).config .cbcEnc = true ∧ (loaded 1 0).config.rdelayEn = false ∧
      (loaded 1 0).config.dummyEn = false ∧ (loaded 1 0).config.antidfaEn = false := by
  refine ⟨fun c _ => ⟨?_, rfl, rfl, fun _ => rfl⟩, rfl, by decide, by decide, rfl, rfl, rfl, rfl, rfl⟩
  cases c <;> rfl

/-- SequencerLeavesTheHostsBuffers: a turn of the sequencer in a cipher command. -/
theorem test_witness_sequencer :
    let s := running .ecbDec [.invSubBytes .state] (loaded 0 0)
    s.nextTurn = .core ∧ (∃ t, step s = .next t ∧ t.busy = false) ∧ s.seqOk = true ∧
      s.seq = .running .ecbDec [.invSubBytes .state] ∧ Command.ecbDec.isCipher = true :=
  ⟨rfl, next_of_after (by decide +kernel), by decide, rfl, rfl⟩

/-- DualRunsTheBodyTwice: each of its three cases. -/
theorem test_witness_dual :
    (running .cbcDec [] (loaded 8 0)).seq = .running .cbcDec [] ∧ Command.cbcDec.isCipher = true ∧
      (loaded 8 0).seq = .idle ∧ (running .seed [] (loaded 8 0)).seq = .running .seed [] ∧
      Command.seed.isCipher = false := by decide

/-- CompareZeroesOnMismatch: the two cases meet different copies. -/
theorem test_witness_compare : (loaded 8 0).state = (loaded 8 0).dfaCopy ∧ (loaded 8 1).state ≠ (loaded 8 1).dfaCopy := by
  decide +kernel

/-- MismatchComesOnlyFromCompare: a comparison that counts one. -/
theorem test_witness_mismatch :
    let s := running .ecbDec [.dfaCompare] (loaded 8 1)
    s.seqOk = true ∧ s.mismatch = 0 ∧ ∃ t, step s = .next t ∧ t.mismatch = 1 :=
  ⟨by decide, rfl, next_of_after (by decide +kernel)⟩

/-- SingleCorruptionIsDetected: ECB_DEC with ANTIDFA_EN, one step after its start, right after the snapshot; and a byte
other than the one there. -/
theorem test_witness_corruption :
    let s := loaded 8 0
    (Command.ecbDec.isCipher = true ∧ commandPresent s.config .ecbDec = true ∧ s.config.antidfaEn = true ∧
      s.seq = .idle ∧ s.onlyHostAndCore ∧ s.inputsWritten .ecbDec) ∧
    after (Host.Core.run core 0 (s.started .ecbDec)) State.busy = some true ∧
    after (Host.Core.run core 1 (s.started .ecbDec)) (fun t => (t.busy, match t.seq with
      | .running c rest => (c == .ecbDec && rest.contains .dfaCompare && !rest.contains .dfaSnapshot, t.state[3])
      | .idle => (false, 0))) = some (true, true, 0) ∧ (5 : Byte) ≠ 0 :=
  ⟨⟨rfl, rfl, rfl, rfl, nofun, rfl, rfl, nofun⟩, by decide +kernel, by decide +kernel, by decide⟩

/-- CorruptionBetweenTheReadsIsDetected: CBC_ENC with ANTIDFA_EN, three steps after its start: IV and round key 0 have been
added to STATE and not yet to DFA_COPY. -/
theorem test_witness_between :
    let s := loaded 9 0
    (Command.cbcEnc.isCipher = true ∧ commandPresent s.config .cbcEnc = true ∧ s.config.antidfaEn = true ∧
      s.seq = .idle ∧ s.onlyHostAndCore ∧ s.inputsWritten .cbcEnc) ∧
    (after (Host.Core.run core 0 (s.started .cbcEnc)) State.busy = some true ∧
      after (Host.Core.run core 1 (s.started .cbcEnc)) State.busy = some true ∧
      after (Host.Core.run core 2 (s.started .cbcEnc)) State.busy = some true) ∧
    after (Host.Core.run core 3 (s.started .cbcEnc)) (fun t => (t.busy, match t.seq with
      | .running c rest => (c == .cbcEnc && rest.all (fun u => !readsSched .state 15 u) &&
          rest.any (readsSched .dfaCopy 15) && !rest.contains (.xorIv .state) && rest.contains (.xorIv .dfaCopy))
      | .idle => false)) = some (true, true) :=
  ⟨⟨rfl, rfl, rfl, rfl, nofun, rfl, rfl, fun _ => rfl⟩, ⟨rfl, rfl, rfl⟩, rfl⟩

/-- ExactlyTheGivenModelFaultsAreRecorded: a pass over an unwritten STATE answers. -/
theorem test_witness_faults : (∃ t, exec (.addRoundKey .state (.round 3)) State.reset = .next t) ∧
    Instr.wf (.addRoundKey .state (.round 3)) = true := ⟨⟨_, rfl⟩, by decide⟩

/-- GfMulLaws: a nonzero byte. -/
theorem test_witness_gf : (0x80 : Byte) ≠ 0 := by decide

end Sys2Proof.Machine
end

section
/-!
SUPPORT. Values the scope's rules give outright: what reset leaves (R38), and the draws of a decoy (R176).
-/
namespace Sys2Proof.Machine

/-- Where every `written` bit is clear, no byte of any data buffer is written (R36). -/
theorem isWritten_of_clear {s : State} (h : s.written = WrittenBits.clear) (d : DataByte) :
    s.isWritten d = false := by
  cases d <;> simp [State.isWritten, h, WrittenBits.clear]

/-- Settles O5: every field but the `written` bits is read off `State.resetOf`. -/
theorem resetLeavesTheGivenValues : Obligations.ResetLeavesTheGivenValues := by
  unfold Obligations.ResetLeavesTheGivenValues
  refine ⟨fun c => ⟨rfl, rfl, rfl, isWritten_of_clear rfl, rfl, rfl, rfl, rfl⟩, rfl, ?_⟩
  decide

/-- Settles O46: the two blocks and `prng` take 16, 16 and 1 draws, numbered one after another. -/
theorem decoyFillFillsTheScratchBuffers : Obligations.DecoyFillFillsTheScratchBuffers := by
  unfold Obligations.DecoyFillFillsTheScratchBuffers
  intro s
  simp [exec, execDecoyFill, State.drawBlock, State.redrawPrng, State.spend, State.putScrState, State.putScrKey,
    State.putPrng, Nat.add_assoc]

end Sys2Proof.Machine
end

section
/-!
SUPPORT. What no instruction changes: the build's configuration and everything that stands outside the core (the fault
model, the host's program and the bytes it has bound, the coming turns, the run so far). One lemma per shared operation,
then one for `exec`, one for `settle`, and the turns' share of it.
-/
namespace Sys2Proof.Machine

/-- `t` agrees with `s` on CONFIG's storage and on every field that describes the surroundings of the core. -/
structure SameSurroundings (s t : State) : Prop where
  config : t.config = s.config
  faultModel : t.faultModel = s.faultModel
  host : t.host = s.host
  got : t.got = s.got
  turns : t.turns = s.turns
  past : t.past = s.past

namespace SameSurroundings

theorem refl (s : State) : SameSurroundings s s := ⟨rfl, rfl, rfl, rfl, rfl, rfl⟩

theorem trans {s t u : State} (h : SameSurroundings s t) (k : SameSurroundings t u) : SameSurroundings s u :=
  ⟨k.config.trans h.config, k.faultModel.trans h.faultModel, k.host.trans h.host, k.got.trans h.got,
    k.turns.trans h.turns, k.past.trans h.past⟩

/-- The only state an outcome `.next r` answers is `r`. -/
theorem of_next {s r t : State} (hr : SameSurroundings s r) (h : (.next r : Result) = .next t) :
    SameSurroundings s t := by
  cases h
  exact hr

theorem of_onlyHidden {s t : State} (h : OnlyHidden s t) : SameSurroundings s t := by
  obtain ⟨_, _, _, _, _, _, rfl⟩ := h
  exact ⟨rfl, rfl, rfl, rfl, rfl, rfl⟩

theorem record (s : State) (fs : List Fault) : SameSurroundings s (s.record fs) := ⟨rfl, rfl, rfl, rfl, rfl, rfl⟩

theorem storeByte (s : State) (d : DataByte) (v : Byte) : SameSurroundings s (s.storeByte d v) := by
  cases d <;> exact ⟨rfl, rfl, rfl, rfl, rfl, rfl⟩

theorem accept (s : State) (c : Command) : SameSurroundings s (s.accept c) := ⟨rfl, rfl, rfl, rfl, rfl, rfl⟩

theorem refuse (s : State) : SameSurroundings s s.refuse := ⟨rfl, rfl, rfl, rfl, rfl, rfl⟩

/-- A write to CMD starts a list or sets `refused` (R72). -/
theorem writeCmd (s : State) (v : Byte) : SameSurroundings s (s.writeCmd v) := by
  unfold State.writeCmd
  split
  · split
    · exact accept s _
    · exact refuse s
  · exact refuse s

/-- CONFIG's own address included: a write there is ignored (R56). -/
theorem hostWrite (s : State) (a d : Byte) : SameSurroundings s (s.hostWrite a d) := by
  unfold State.hostWrite
  split
  · exact record s _
  · split
    · exact storeByte s _ d
    · exact writeCmd s d
    all_goals exact .refl s

theorem hostRead (s : State) (a v : Byte) : SameSurroundings s ((s.hostRead a).2.putReadData v) := by
  obtain h | h := hostRead_state s a <;> rw [h] <;> exact ⟨rfl, rfl, rfl, rfl, rfl, rfl⟩

/-- A core read records faults and counts draws (R205). -/
theorem coreRead {n : Nat} (s : State) (e : DataBuf) (off : Nat) (v : Vector Byte n) (w : Vector Bool n) :
    SameSurroundings s (s.coreRead e off v w).2 := ⟨rfl, rfl, rfl, rfl, rfl, rfl⟩

theorem readTarget (s : State) (x : Target) : SameSurroundings s (s.readTarget x).2 := by
  cases x with
  | state => exact coreRead s ..
  | dfaCopy | scrState => exact .refl s

theorem readKey (s : State) (k : KeySel) : SameSurroundings s (s.readKey k).2 := by
  cases k with
  | round n => exact coreRead s ..
  | scratch => exact .refl s

theorem writeTarget (s : State) (x : Target) (b : Block) : SameSurroundings s (s.writeTarget x b) := by
  cases x <;> exact ⟨rfl, rfl, rfl, rfl, rfl, rfl⟩

theorem transform (s : State) (x : Target) (f : Block → Block) : SameSurroundings s (s.transform x f) :=
  (readTarget s x).trans (writeTarget ..)

/-- A pass with a second operand, where reading that operand changes nothing outside the core. -/
theorem combine {g : State → Block × State} (hg : ∀ t, SameSurroundings t (g t).2) (s : State) (x : Target) :
    SameSurroundings s (s.combine x g) :=
  ((readTarget s x).trans (hg _)).trans (writeTarget ..)

theorem putSched (s : State) (r : Sched) (w : Vector Bool 176) : SameSurroundings s (s.putSched r w) :=
  ⟨rfl, rfl, rfl, rfl, rfl, rfl⟩

theorem keyCopy (s : State) : SameSurroundings s s.keyCopy :=
  (coreRead s ..).trans (putSched ..)

theorem keyWord (s : State) (i : Fin 44) : SameSurroundings s (s.keyWord i) :=
  ((coreRead s ..).trans (coreRead ..)).trans (putSched ..)

theorem putState (s : State) (b : Block) : SameSurroundings s (s.putState b) := writeTarget s .state b

theorem putDfaCopy (s : State) (b : Block) : SameSurroundings s (s.putDfaCopy b) := writeTarget s .dfaCopy b

theorem countMismatch (s : State) : SameSurroundings s s.countMismatch := ⟨rfl, rfl, rfl, rfl, rfl, rfl⟩

theorem putPrng (s : State) (p : Config.PrngState) : SameSurroundings s (s.putPrng p) :=
  ⟨rfl, rfl, rfl, rfl, rfl, rfl⟩

theorem putFnOut (s : State) (v : Byte) : SameSurroundings s (s.putFnOut v) := ⟨rfl, rfl, rfl, rfl, rfl, rfl⟩

/-- R176 leaves everything but the scratch buffers, `prng` and the count of draws. -/
theorem of_decoyFill {s t : State} (h : exec .decoyFill s = .next t) : SameSurroundings s t := by
  cases (decoyFillFillsTheScratchBuffers s).symm.trans h
  exact ⟨rfl, rfl, rfl, rfl, rfl, rfl⟩

theorem of_keyWord {i : Fin 44} {s t : State} (h : execKeyWord i s = .next t) : SameSurroundings s t := by
  unfold execKeyWord at h
  split at h
  · exact (keyWord s i).of_next h
  · cases h

/-- Both outcomes of the comparison (R182). -/
theorem of_dfaCompare {s t : State} (h : execDfaCompare s = .next t) : SameSurroundings s t := by
  simp only [execDfaCompare] at h
  have read : SameSurroundings s s.readState.2 := coreRead s ..
  split at h
  · exact read.of_next h
  · exact ((read.trans (putState ..)).trans (countMismatch _)).of_next h

/-- An expansion changes the list, `prng` and the count of draws at most (R76). -/
theorem of_macro {u : Instr} {s t : State} (hu : isMacro u = true) (h : exec u s = .next t) :
    SameSurroundings s t :=
  of_onlyHidden (exec_macro hu h)

theorem settle (s : State) : SameSurroundings s (settle s) := of_onlyHidden (settle_only s)

/-- No instruction changes CONFIG or what stands outside the core. -/
theorem of_exec {i : Instr} {s t : State} (h : exec i s = .next t) : SameSurroundings s t := by
  cases i with
  | expandKey | ecbEnc | ecbDec | cbcEnc | cbcDec | seed | hostWr => exact (hostWrite s _ _).of_next h
  | hostRd a => exact (hostRead s a _).of_next h
  | subBytes x | invSubBytes x | shiftRows x | invShiftRows x | mixColumns x | invMixColumns x =>
    exact (transform s x _).of_next h
  | addRoundKey x k => exact (combine (readKey · k) s x).of_next h
  | xorIv x => exact (combine (fun t => coreRead t ..) s x).of_next h
  | round | lastRound | firstInvRound | invRound | delay | decoyGroup | dual => exact of_macro rfl h
  | keyCopy => exact (keyCopy s).of_next h
  | keyWord i => exact of_keyWord h
  | dfaSnapshot => exact ((coreRead s ..).trans (putDfaCopy ..)).of_next h
  | dfaCompare => exact of_dfaCompare h
  | prngSeed => exact ((coreRead s ..).trans (putPrng ..)).of_next h
  | idle => exact (SameSurroundings.refl s).of_next h
  | decoyFill => exact of_decoyFill h
  | sboxLookup | invSboxLookup | gfMul => exact (putFnOut s _).of_next h

end SameSurroundings

/-! ### The agents' turns -/

/-- A turn's follow-up runs only after a turn that answered a next state. -/
theorem mapNext_next {f : State → State} {o : Result} {t : State} (h : mapNext f o = .next t) :
    ∃ r, o = .next r ∧ t = f r := by
  cases o <;> cases h
  exact ⟨_, rfl, rfl⟩

@[simp] theorem bindRead_config (s : State) (i : Instr) : (s.bindRead i).config = s.config := by
  cases i <;> rfl

@[simp] theorem bindRead_faultModel (s : State) (i : Instr) : (s.bindRead i).faultModel = s.faultModel := by
  cases i <;> rfl

@[simp] theorem afterPoll_config (s : State) (rest : List HostLine) : (s.afterPoll rest).config = s.config := by
  unfold State.afterPoll
  split <;> rfl

@[simp] theorem afterPoll_faultModel (s : State) (rest : List HostLine) :
    (s.afterPoll rest).faultModel = s.faultModel := by
  unfold State.afterPoll
  split <;> rfl

@[simp] theorem envReset_config (s : State) : s.envReset.config = s.config := by simp [State.envReset]

@[simp] theorem envReset_faultModel (s : State) : s.envReset.faultModel = s.faultModel := by simp [State.envReset]

@[simp] theorem corrupt_config (s : State) (b : HwByte) (v : Byte) : (s.corrupt b v).config = s.config := by
  cases b with
  | data d => cases d <;> rfl
  | _ => rfl

@[simp] theorem corrupt_faultModel (s : State) (b : HwByte) (v : Byte) :
    (s.corrupt b v).faultModel = s.faultModel := by
  cases b with
  | data d => cases d <;> rfl
  | _ => rfl

/-- A transaction and a poll are both instructions, and binding the byte read stays in the host (R82, R83). -/
theorem hostTurn_keeps_build {s t : State} (h : hostTurn s = .next t) :
    t.config = s.config ∧ t.faultModel = s.faultModel := by
  unfold hostTurn at h
  split at h
  · cases h
    exact ⟨rfl, rfl⟩
  all_goals
    obtain ⟨r, hr, rfl⟩ := mapNext_next h
    have frame := SameSurroundings.of_exec hr
    exact ⟨by simp [frame.config], by simp [frame.faultModel]⟩

theorem coreTurn_keeps_build {s t : State} (h : coreTurn s = .next t) :
    t.config = s.config ∧ t.faultModel = s.faultModel := by
  unfold coreTurn at h
  split at h
  · cases h
    exact ⟨rfl, rfl⟩
  · cases h
    exact ⟨rfl, rfl⟩
  · have frame := SameSurroundings.of_exec h
    exact ⟨frame.config, frame.faultModel⟩

/-- A fault event replaces a byte of a buffer, and CONFIG is none (R190, R191). -/
theorem corruptTurn_keeps_build {b : HwByte} {v : Byte} {s t : State} (h : corruptTurn b v s = .next t) :
    t.config = s.config ∧ t.faultModel = s.faultModel := by
  unfold corruptTurn at h
  split at h
  · cases h
    exact ⟨corrupt_config s b v, corrupt_faultModel s b v⟩
  · cases h

theorem funcTurn_keeps_build {f : BitVec 32} {s t : State} (h : funcTurn f s = .next t) :
    t.config = s.config ∧ t.faultModel = s.faultModel := by
  unfold funcTurn at h
  split at h
  · have frame := SameSurroundings.of_exec h
    exact ⟨frame.config, frame.faultModel⟩
  · cases h

/-- No agent's turn changes CONFIG or the fault model. -/
theorem takeTurn_keeps_build {a : Turn} {s t : State} (h : takeTurn a s = .next t) :
    t.config = s.config ∧ t.faultModel = s.faultModel := by
  cases a with
  | host => exact hostTurn_keeps_build h
  | core => exact coreTurn_keeps_build h
  | reset =>
    obtain rfl : s.envReset.note .reset = t := Host.Outcome.next.inj h
    simp
  | corrupt b v => exact corruptTurn_keeps_build h
  | func f => exact funcTurn_keeps_build h

/-- Settles O12: a step is a turn and then `settle`, and neither touches CONFIG or the fault model. -/
theorem noStepChangesConfig : Obligations.NoStepChangesConfig := by
  unfold Obligations.NoStepChangesConfig
  intro s t h
  obtain ⟨r, hr, rfl⟩ := step_next h
  obtain ⟨turnConfig, turnModel⟩ := takeTurn_keeps_build hr
  have frame := SameSurroundings.settle r
  have hc : (settle r).config = s.config := frame.config.trans turnConfig
  exact ⟨hc, congrArg configByteOf hc, frame.faultModel.trans turnModel⟩

end Sys2Proof.Machine
end

section
/-!
SUPPORT. What executing any instruction can do to the core, and what an agent's turn can do: one inversion lemma for
`exec` and one for `takeTurn`, from which invariants over every step follow.
-/
namespace Sys2Proof.Machine

/-! ### Executing an instruction -/

/-- The work of most instructions: CONFIG, the sequencer, IV, KEY, SEED, SCHED and the ghosts `refused` and `mismatch`
stay, recorded faults are only appended to, and every other field is left open. -/
structure CoreWork (s t : State) : Prop where
  config : t.config = s.config
  seq : t.seq = s.seq
  iv : t.iv = s.iv
  key : t.key = s.key
  seed : t.seed = s.seed
  sched : t.sched = s.sched
  writtenIv : t.written.iv = s.written.iv
  writtenKey : t.written.key = s.written.key
  writtenSeed : t.written.seed = s.written.seed
  writtenSched : t.written.sched = s.written.sched
  refused : t.refused = s.refused
  mismatch : t.mismatch = s.mismatch
  faults : s.faults <+: t.faults

namespace CoreWork

theorem refl (s : State) : CoreWork s s :=
  ⟨rfl, rfl, rfl, rfl, rfl, rfl, rfl, rfl, rfl, rfl, rfl, rfl, List.prefix_refl _⟩

theorem trans {s t u : State} (h : CoreWork s t) (k : CoreWork t u) : CoreWork s u where
  config := k.config.trans h.config
  seq := k.seq.trans h.seq
  iv := k.iv.trans h.iv
  key := k.key.trans h.key
  seed := k.seed.trans h.seed
  sched := k.sched.trans h.sched
  writtenIv := k.writtenIv.trans h.writtenIv
  writtenKey := k.writtenKey.trans h.writtenKey
  writtenSeed := k.writtenSeed.trans h.writtenSeed
  writtenSched := k.writtenSched.trans h.writtenSched
  refused := k.refused.trans h.refused
  mismatch := k.mismatch.trans h.mismatch
  faults := h.faults.trans k.faults

/-- STATE, `prng`, the hidden buffers, the count of draws and the model's own outputs are what `CoreWork` leaves open. -/
theorem of_update (s : State) (b : Block) (w : Vector Bool 16) (p : Config.PrngState) (x y z : Block) (d : Nat)
    (v f : Byte) :
    CoreWork s { s with
      state := b, written := { s.written with state := w }, prng := p, dfaCopy := x, scrState := y, scrKey := z,
      draws := d, readData := v, fnOut := f } :=
  ⟨rfl, rfl, rfl, rfl, rfl, rfl, rfl, rfl, rfl, rfl, rfl, rfl, List.prefix_refl _⟩

theorem record (s : State) (l : List Fault) : CoreWork s (s.record l) :=
  ⟨rfl, rfl, rfl, rfl, rfl, rfl, rfl, rfl, rfl, rfl, rfl, rfl, List.prefix_append ..⟩

/-- A core read records faults and counts draws (R205). -/
theorem coreRead {n : Nat} (s : State) (e : DataBuf) (off : Nat) (v : Vector Byte n) (w : Vector Bool n) :
    CoreWork s (s.coreRead e off v w).2 := by
  rw [(coreRead_spec s e off v w).2]
  exact (record s _).trans (of_update ..)

theorem readTarget (s : State) (x : Target) : CoreWork s (s.readTarget x).2 := by
  cases x with
  | state => exact coreRead s ..
  | dfaCopy | scrState => exact .refl s

theorem readKey (s : State) (k : KeySel) : CoreWork s (s.readKey k).2 := by
  cases k with
  | round n => exact coreRead s ..
  | scratch => exact .refl s

/-- A target is STATE or a hidden buffer (R77). -/
theorem writeTarget (s : State) (x : Target) (b : Block) : CoreWork s (s.writeTarget x b) := by
  cases x <;> exact of_update ..

theorem transform (s : State) (x : Target) (f : Block → Block) : CoreWork s (s.transform x f) :=
  (readTarget s x).trans (writeTarget ..)

/-- A pass with a second operand, where reading that operand is core work itself. -/
theorem combine {g : State → Block × State} (hg : ∀ t, CoreWork t (g t).2) (s : State) (x : Target) :
    CoreWork s (s.combine x g) :=
  ((readTarget s x).trans (hg _)).trans (writeTarget ..)

theorem hostRead (s : State) (a v : Byte) : CoreWork s ((s.hostRead a).2.putReadData v) := by
  obtain h | h := hostRead_state s a <;> rw [h] <;> exact of_update ..

theorem of_decoyFill {s t : State} (h : exec .decoyFill s = .next t) : CoreWork s t := by
  cases (decoyFillFillsTheScratchBuffers s).symm.trans h
  exact of_update ..

/-- An expansion is such work, but for the list itself (R76). -/
theorem of_onlyHidden {s t : State} (h : OnlyHidden s t) : CoreWork (s.putSeq t.seq) t := by
  obtain ⟨_, _, _, _, _, _, rfl⟩ := h
  exact of_update ..

end CoreWork

/-- What an instruction that answers a next state can do to the core. `s.busy = false` marks what only a host write at Idle
does (R56, R57, R72). -/
inductive Effect (s : State) : Instr → State → Prop
  | work {i : Instr} {t : State} (h : CoreWork s t) : Effect s i t
  | schedule {i : Instr} {r : State} (hi : i = .keyCopy ∨ ∃ j, i = .keyWord j) (h : CoreWork s r) (k : Sched)
      (w : Vector Bool 176) : Effect s i (r.putSched k w)
  | mismatch {r : State} (h : CoreWork s r) : Effect s .dfaCompare r.countMismatch
  | expansion {u : Instr} {t : State} (hu : isMacro u = true) (h : OnlyHidden s t) : Effect s u t
  | store {i : Instr} (idle : s.busy = false) (d : DataByte) (v : Byte) : Effect s i (s.storeByte d v)
  | accept {i : Instr} (idle : s.busy = false) {c : Command} (hc : commandPresent s.config c = true) :
      Effect s i (s.accept c)
  | refuse {i : Instr} (idle : s.busy = false) : Effect s i s.refuse

namespace Effect

/-- The only state an outcome `.next r` answers is `r`. -/
theorem of_next {i : Instr} {s r t : State} (hr : Effect s i r) (h : (.next r : Result) = .next t) : Effect s i t := by
  cases h
  exact hr

/-- A write to CMD at Idle is accepted or refused (R72). -/
theorem writeCmd {s : State} (idle : s.busy = false) (i : Instr) (v : Byte) : Effect s i (s.writeCmd v) := by
  unfold State.writeCmd
  split
  · split
    · exact .accept idle ‹_›
    · exact .refuse idle
  · exact .refuse idle

/-- The busy check comes first (R57, R211). -/
theorem hostWrite (s : State) (i : Instr) (a d : Byte) : Effect s i (s.hostWrite a d) := by
  cases hb : s.busy with
  | true =>
    rw [hostWrite_of_busy hb]
    exact .work (.record s _)
  | false =>
    simp only [State.hostWrite, hb, Bool.false_eq_true, if_false]
    split
    · exact .store hb _ d
    · exact writeCmd hb i d
    all_goals exact .work (.refl s)

theorem of_keyWord {j : Fin 44} {s t : State} (h : execKeyWord j s = .next t) : Effect s (.keyWord j) t := by
  unfold execKeyWord at h
  split at h
  · exact (schedule (.inr ⟨j, rfl⟩) ((CoreWork.coreRead s ..).trans (.coreRead ..)) _ _).of_next h
  · cases h

/-- Only the failed comparison counts a mismatch (R182). -/
theorem of_dfaCompare {s t : State} (h : execDfaCompare s = .next t) : Effect s .dfaCompare t := by
  simp only [execDfaCompare] at h
  have read : CoreWork s s.readState.2 := .coreRead s ..
  split at h
  · exact (work read).of_next h
  · exact (mismatch (read.trans (.writeTarget _ .state _))).of_next h

/-- Every instruction's effect is one of the seven. -/
theorem of_exec {i : Instr} {s t : State} (h : exec i s = .next t) : Effect s i t := by
  cases i with
  | expandKey | ecbEnc | ecbDec | cbcEnc | cbcDec | seed | hostWr => exact (hostWrite s _ _ _).of_next h
  | hostRd a => exact (work (.hostRead s a _)).of_next h
  | keyCopy => exact (schedule (.inl rfl) (.coreRead s ..) _ _).of_next h
  | keyWord j => exact of_keyWord h
  | subBytes x | invSubBytes x | shiftRows x | invShiftRows x | mixColumns x | invMixColumns x =>
    exact (work (.transform s x _)).of_next h
  | addRoundKey x k => exact (work (.combine (.readKey · k) s x)).of_next h
  | xorIv x => exact (work (.combine (fun t => .coreRead t ..) s x)).of_next h
  | round | lastRound | firstInvRound | invRound | delay | decoyGroup | dual => exact expansion rfl (exec_macro rfl h)
  | idle => exact (work (.refl s)).of_next h
  | decoyFill => exact work (.of_decoyFill h)
  | dfaSnapshot => exact (work ((CoreWork.coreRead s ..).trans (.writeTarget _ .dfaCopy _))).of_next h
  | dfaCompare => exact of_dfaCompare h
  | prngSeed => exact (work ((CoreWork.coreRead s ..).trans (.of_update ..))).of_next h
  | sboxLookup | invSboxLookup | gfMul => exact (work (.of_update s ..)).of_next h

end Effect

/-! ### Taking a turn -/

/-- `t` differs from `s` outside the core at most: in the host's program, the bytes it has bound, the coming turns and the
run so far. -/
def OutsideOnly (s t : State) : Prop :=
  ∃ lines bytes coming run, t = { s with host := lines, got := bytes, turns := coming, past := run }

namespace OutsideOnly

theorem bindRead (s : State) (i : Instr) : OutsideOnly s (s.bindRead i) := by
  cases i <;> exact ⟨_, _, _, _, rfl⟩

theorem afterPoll (s : State) (rest : List HostLine) : OutsideOnly s (s.afterPoll rest) := by
  unfold State.afterPoll
  split <;> exact ⟨_, _, _, _, rfl⟩

theorem coreWork {s t : State} (h : OutsideOnly s t) : CoreWork s t := by
  obtain ⟨_, _, _, _, rfl⟩ := h
  exact ⟨rfl, rfl, rfl, rfl, rfl, rfl, rfl, rfl, rfl, rfl, rfl, rfl, List.prefix_refl _⟩

end OutsideOnly

/-- The host's transactions have no expansion (R74). -/
theorem isMacro_decodeHost (w : BitVec 17) : isMacro (decodeHost w) = false := by
  unfold decodeHost
  split <;> rfl

/-- Nor have the functions (R80). -/
theorem isMacro_of_decodeFunction {f : BitVec 32} {i : Instr} (h : decodeFunction f = .ok i) : isMacro i = false := by
  simp only [decodeFunction] at h
  split at h
  · split at h <;> cases h
    rfl
  · split at h <;> cases h
    rfl
  · cases h
    rfl
  · cases h

/-- What one agent's turn that answers a next state can do: nothing; an instruction of the host's or a function, with a
change outside the core before and after it; the sequencer's head, taken off the list; a reset; a fault event. -/
inductive TurnEffect (s : State) : Turn → State → Prop
  | silent {a : Turn} : TurnEffect s a s
  | instr {a : Turn} {i : Instr} {r r' t : State} (ha : a ≠ .core) (hi : isMacro i = false) (before : OutsideOnly s r)
      (he : exec i r = .next r') (after : OutsideOnly r' t) : TurnEffect s a t
  | microStep {c : Command} {u : Instr} {rest : List Instr} {t : State} (hs : s.seq = .running c (u :: rest))
      (he : exec u ((s.putSeq (.running c rest)).note (.core u)) = .next t) : TurnEffect s .core t
  | reset : TurnEffect s .reset (s.envReset.note .reset)
  | corrupt (b : HwByte) (v : Byte) : TurnEffect s (.corrupt b v) ((s.corrupt b v).note (.corrupt b v))

namespace TurnEffect

theorem of_hostTurn {s t : State} (h : hostTurn s = .next t) : TurnEffect s .host t := by
  unfold hostTurn at h
  split at h
  · cases h
    exact .silent
  · obtain ⟨r, hr, rfl⟩ := mapNext_next h
    exact .instr nofun (isMacro_decodeHost _) ⟨_, _, _, _, rfl⟩ hr (.bindRead r _)
  · obtain ⟨r, hr, rfl⟩ := mapNext_next h
    exact .instr nofun rfl ⟨_, _, _, _, rfl⟩ hr (.afterPoll r _)

theorem of_coreTurn {s t : State} (h : coreTurn s = .next t) : TurnEffect s .core t := by
  unfold coreTurn at h
  split at h
  · cases h
    exact .silent
  · cases h
    exact .silent
  · exact .microStep ‹_› h

theorem of_corruptTurn {b : HwByte} {v : Byte} {s t : State} (h : corruptTurn b v s = .next t) :
    TurnEffect s (.corrupt b v) t := by
  unfold corruptTurn at h
  split at h
  · cases h
    exact .corrupt b v
  · cases h

theorem of_funcTurn {f : BitVec 32} {s t : State} (h : funcTurn f s = .next t) : TurnEffect s (.func f) t := by
  unfold funcTurn at h
  split at h
  · exact .instr nofun (isMacro_of_decodeFunction ‹_›) ⟨_, _, _, _, rfl⟩ h ⟨_, _, _, _, rfl⟩
  · cases h

theorem of_takeTurn {a : Turn} {s t : State} (h : takeTurn a s = .next t) : TurnEffect s a t := by
  cases a with
  | host => exact of_hostTurn h
  | core => exact of_coreTurn h
  | reset =>
    obtain rfl : s.envReset.note .reset = t := Host.Outcome.next.inj h
    exact .reset
  | corrupt b v => exact of_corruptTurn h
  | func f => exact of_funcTurn h

/-- A step is a turn of the agent that is due, then `settle`. -/
theorem of_step {s t : State} (h : step s = .next t) : ∃ r, TurnEffect s.dropTurn s.nextTurn r ∧ t = settle r := by
  obtain ⟨r, hr, ht⟩ := step_next h
  exact ⟨r, of_takeTurn hr, ht⟩

end TurnEffect

end Sys2Proof.Machine
end

section
/-!
SUPPORT. What the sequencer's list holds (R79): in every build, the lists of the commands and the expansions made in them
consist of entries the rules produce.
-/
namespace Sys2Proof.Machine

/-- Every entry of the list is one the rules produce for the command (R79). -/
def AllProduced (b : Config.BuildFlags) (c : Command) (l : List Instr) : Prop := ∀ u ∈ l, produced b c u = true

namespace AllProduced

variable {b : Config.BuildFlags} {c : Command}

@[simp] theorem nil : AllProduced b c [] := List.forall_mem_nil _

@[simp] theorem cons_iff {u : Instr} {l : List Instr} :
    AllProduced b c (u :: l) ↔ produced b c u = true ∧ AllProduced b c l := List.forall_mem_cons

@[simp] theorem append_iff {l m : List Instr} : AllProduced b c (l ++ m) ↔ AllProduced b c l ∧ AllProduced b c m :=
  List.forall_mem_append

theorem flatMap {α : Type} {l : List α} {f : α → List Instr} (h : ∀ a ∈ l, AllProduced b c (f a)) :
    AllProduced b c (l.flatMap f) := by
  intro u hu
  obtain ⟨a, ha, hua⟩ := List.mem_flatMap.1 hu
  exact h a ha u hua

end AllProduced

/-- A round kind belongs to cipher commands only (R151 to R154). -/
theorem isCipher_of_kindOf {c : Command} {kind : RoundKind} (h : kindOf c kind = true) : c.isCipher = true := by
  cases kind <;> cases c <;> first | rfl | cases h

theorem isCipher_of_encrypts {c : Command} (h : encrypts c = true) : c.isCipher = true :=
  isCipher_of_kindOf (kind := .round) h

theorem isCipher_of_decrypts {c : Command} (h : decrypts c = true) : c.isCipher = true :=
  isCipher_of_kindOf (kind := .invRound) h

/-- A real target takes the round keys (R175 to R177). -/
theorem keyFits_of_isReal {x : Target} (hx : x.isReal = true) (n : Fin 11) : keyFits x (.round n) = true := by
  cases x with
  | state | dfaCopy => rfl
  | scrState => cases hx

/-- What the words of the four round kinds need, said once (R77, R79). -/
theorem produced_roundWord (b : Config.BuildFlags) (c : Command) (kind : RoundKind) (x : Target) (k : KeySel) :
    produced b c (roundWord kind x k) = (kindOf c kind && targetUsed b x && keyFits x k && kind.takes k) := by
  cases kind <;> rfl

theorem produced_delay_short (b : Config.BuildFlags) (c : Command) :
    produced b c (.delay .short) = (c.isCipher && b.rdelayEn) := rfl

theorem produced_delay_long (b : Config.BuildFlags) (c : Command) :
    produced b c (.delay .long) = (c.isCipher && b.rdelayEn) := rfl

section Lists

variable {b : Config.BuildFlags} {c : Command} {kind : RoundKind} {x : Target} {k : KeySel} {n : Fin 11}

/-! ### Expansions -/

/-- Padding adds short delays, in a build with RDELAY_EN only (R173). -/
theorem allProduced_padPass {p : Instr} (hc : c.isCipher = true) (hp : produced b c p = true) :
    AllProduced b c (padPass b p) := by
  unfold padPass
  split <;> simp [produced_delay_short, *]

/-- The passes of a round kind the command uses (R140 to R143). -/
theorem allProduced_roundPasses (hk : kindOf c kind = true) (hx : targetUsed b x = true) (hf : keyFits x k = true) :
    AllProduced b c (roundPasses kind x k) := by
  have hc := isCipher_of_kindOf hk
  cases kind <;> simp only [kindOf] at hk <;> simp [roundPasses, produced, *]

/-- A produced round kind's expansion (R140 to R143, R173). -/
theorem allProduced_roundExpansion (h : produced b c (roundWord kind x k) = true) :
    AllProduced b c (roundExpansion b kind x k) := by
  simp only [produced_roundWord, Bool.and_eq_true] at h
  obtain ⟨⟨⟨hk, hx⟩, hf⟩, -⟩ := h
  exact .flatMap fun p hp => allProduced_padPass (isCipher_of_kindOf hk) (allProduced_roundPasses hk hx hf p hp)

/-- A call group's invocations, the decoys on the scratch buffers (R175). -/
theorem allProduced_groupExpansion (h : produced b c (.decoyGroup kind x n) = true) (cnt pos : Nat) :
    AllProduced b c (groupExpansion kind x n cnt pos) := by
  simp only [produced, Bool.and_eq_true] at h
  obtain ⟨⟨⟨⟨hk, hd⟩, hx⟩, hr⟩, ht⟩ := h
  have decoyTakes : kind.takes .scratch = true := by cases kind <;> rfl
  have real : produced b c (roundWord kind x (.round n)) = true := by
    simp [produced_roundWord, hk, hx, keyFits_of_isReal hr, ht]
  have decoy : produced b c (roundWord kind .scrState .scratch) = true := by
    simp [produced_roundWord, hk, targetUsed, hd, keyFits, decoyTakes]
  have fill : produced b c .decoyFill = true := by simp [produced, isCipher_of_kindOf hk, hd]
  refine .flatMap fun j _ => ?_
  unfold invocation
  split <;> simp [real, decoy, fill]

/-! ### Bodies and lists of the commands -/

/-- A round or its call group, with its long delays (R173, R178). -/
theorem allProduced_hardRound (hk : kindOf c kind = true) (hx : targetUsed b x = true) (hr : x.isReal = true)
    (ht : kind.takes (.round n) = true) : AllProduced b c (hardRound b kind x n) := by
  have group : AllProduced b c (groupOf b kind x n) := by
    unfold groupOf
    split
    · simp [produced, *]
    · simp [produced_roundWord, keyFits_of_isReal, *]
  unfold hardRound
  split <;> simp [produced_delay_long, isCipher_of_kindOf hk, *]

theorem takes_of_mem_innerRounds (hn : n ∈ innerRounds) :
    RoundKind.round.takes (.round n) = true ∧ RoundKind.invRound.takes (.round n) = true := by
  revert n
  decide

theorem allProduced_encBody (hc : encrypts c = true) (hx : targetUsed b x = true) (hr : x.isReal = true) :
    AllProduced b c (encBody b x) := by
  have cipher := isCipher_of_encrypts hc
  simp only [encBody, AllProduced.append_iff]
  refine ⟨⟨allProduced_padPass cipher ?_, .flatMap fun n hn => ?_⟩, ?_⟩
  · simp [produced, cipher, hx, keyFits_of_isReal hr]
  · exact allProduced_hardRound hc hx hr (takes_of_mem_innerRounds hn).1
  · exact allProduced_hardRound hc hx hr rfl

theorem allProduced_decBody (hc : decrypts c = true) (hx : targetUsed b x = true) (hr : x.isReal = true) :
    AllProduced b c (decBody b x) := by
  have cipher := isCipher_of_decrypts hc
  simp only [decBody, AllProduced.append_iff]
  refine ⟨⟨?_, .flatMap fun n hn => ?_⟩, allProduced_padPass cipher ?_⟩
  · exact allProduced_hardRound hc hx hr rfl
  · exact allProduced_hardRound hc hx hr (takes_of_mem_innerRounds (List.mem_reverse.1 hn)).2
  · simp [produced, cipher, hx, keyFits_of_isReal hr]

/-- The CBC commands add IV before or after the ECB body (R153, R154). -/
theorem allProduced_cipherBody (hx : targetUsed b x = true) (hr : x.isReal = true) :
    AllProduced b c (cipherBody b c x) := by
  cases c with
  | ecbEnc => exact allProduced_encBody rfl hx hr
  | ecbDec => exact allProduced_decBody rfl hx hr
  | cbcEnc =>
    exact AllProduced.append_iff.2
      ⟨allProduced_padPass rfl (by simp [produced, usesIv, hx, hr]), allProduced_encBody rfl hx hr⟩
  | cbcDec =>
    exact AllProduced.append_iff.2
      ⟨allProduced_decBody rfl hx hr, allProduced_padPass rfl (by simp [produced, usesIv, hx, hr])⟩
  | expandKey | seed => exact AllProduced.nil

/-- The dual computation runs the body on STATE and on DFA_COPY (R181). -/
theorem allProduced_dualExpansion (h : produced b c .dual = true) : AllProduced b c (dualExpansion b c) := by
  simp only [produced, Bool.and_eq_true] at h
  obtain ⟨hc, ha⟩ := h
  have onState : AllProduced b c (cipherBody b c .state) := allProduced_cipherBody rfl rfl
  have onCopy : AllProduced b c (cipherBody b c .dfaCopy) := allProduced_cipherBody ha rfl
  simp [dualExpansion, onState, onCopy, produced, hc, ha]

theorem allProduced_cipherSteps (hc : c.isCipher = true) : AllProduced b c (cipherSteps b c) := by
  have mid : AllProduced b c (midSteps b c) := by
    unfold midSteps
    split
    · simp [produced, *]
    · exact allProduced_cipherBody rfl rfl
  unfold cipherSteps
  split <;> simp [produced_delay_long, *]

/-- The list a command starts with (R122, R156, R186). -/
theorem allProduced_commandSteps (b : Config.BuildFlags) (c : Command) : AllProduced b c (commandSteps b c) := by
  cases c with
  | expandKey =>
    have words : ∀ i ∈ wordIndexes, 4 ≤ i.val := by decide
    simpa [commandSteps, produced, AllProduced] using words
  | ecbEnc | ecbDec | cbcEnc | cbcDec => exact allProduced_cipherSteps rfl
  | seed => simp [commandSteps, produced]

end Lists

end Sys2Proof.Machine
end

section
/-!
SUPPORT. Expansion (R76): an entry for which `isMacro` holds and which the running command's rules produce is replaced by
its expansion, and the fuel of `settle` is enough for all replacements that can be due. With it, the sequencer's
invariant over every step.
-/
namespace Sys2Proof.Machine

/-! ### One expansion -/

/-- `Expands b c u l`: in the build `b` under the command `c`, `l` is an expansion of `u`: of a round kind (R140 to R143),
of DELAY (R172), of DECOY_GROUP, which has at least one invocation (R175), or of DUAL (R181). -/
inductive Expands (b : Config.BuildFlags) (c : Command) : Instr → List Instr → Prop
  | round (kind : RoundKind) (x : Target) (k : KeySel) : Expands b c (roundWord kind x k) (roundExpansion b kind x k)
  | delay (d : DelayClass) (n : Nat) : Expands b c (.delay d) (List.replicate n .idle)
  | group (kind : RoundKind) (x : Target) (n : Fin 11) {cnt : Nat} (pos : Nat) (hcnt : 1 ≤ cnt) :
      Expands b c (.decoyGroup kind x n) (groupExpansion kind x n cnt pos)
  | dual : Expands b c .dual (dualExpansion b c)

/-- An expansion of a produced entry holds produced entries only (R79). -/
theorem Expands.allProduced {b : Config.BuildFlags} {c : Command} {u : Instr} {l : List Instr} (h : Expands b c u l)
    (hu : produced b c u = true) : AllProduced b c l := by
  cases h with
  | round kind x k => exact allProduced_roundExpansion hu
  | delay d n =>
    intro v hv
    obtain rfl := List.eq_of_mem_replicate hv
    cases d <;> simp_all [produced]
  | group kind x n pos => exact allProduced_groupExpansion hu _ _
  | dual => exact allProduced_dualExpansion hu

/-- A produced entry that `isMacro` marks answers: its expansion goes to the head of the list, after draws at most. -/
theorem exec_macro_of_produced {s : State} {c : Command} {rest : List Instr} {u : Instr}
    (hs : s.seq = .running c rest) (hm : isMacro u = true) (hu : produced s.config c u = true) :
    ∃ (r : State) (l : List Instr), exec u s = .next (r.prepend l) ∧ Expands s.config c u l ∧ r.seq = s.seq ∧
      r.config = s.config := by
  have hb := busy_of_running hs
  cases u with
  | round x k => exact ⟨s, _, expanded_of_busy hb (·.expandRound .round x k), .round .round x k, rfl, rfl⟩
  | lastRound x k => exact ⟨s, _, expanded_of_busy hb (·.expandRound .lastRound x k), .round .lastRound x k, rfl, rfl⟩
  | firstInvRound x k => exact ⟨s, _, expanded_of_busy hb (·.expandRound .firstInvRound x k), .round .firstInvRound x k,
    rfl, rfl⟩
  | invRound x k => exact ⟨s, _, expanded_of_busy hb (·.expandRound .invRound x k), .round .invRound x k, rfl, rfl⟩
  | delay d => exact ⟨_, _, expanded_of_busy hb (·.expandDelay d), .delay d _, rfl, rfl⟩
  | decoyGroup kind x n =>
    exact ⟨_, _, expanded_of_busy hb (·.expandGroup kind x n), .group kind x n _ (Nat.le_add_right 1 _), rfl, rfl⟩
  | dual =>
    have hc : c.isCipher = true := (Bool.and_eq_true_iff.1 hu).1
    exact ⟨s, _, by simp [exec, execDual, hs, hc], .dual, rfl, rfl⟩
  | _ => cases hm

/-! ### The fuel of `settle` -/

/-- The most replacements that can be due at the head of a list, one more where the list can become empty. -/
def due : List Instr → Nat
  | [] => 1
  | .delay _ :: rest => due rest + 1
  | .decoyGroup _ _ _ :: _ => 3
  | .dual :: _ => 1
  | u :: _ => if isMacro u then 2 else 0

theorem due_of_head {u : Instr} (hu : isMacro u = false) (rest : List Instr) : due (u :: rest) = 0 := by
  cases u <;> first | rfl | cases hu

theorem due_roundWord (kind : RoundKind) (x : Target) (k : KeySel) (rest : List Instr) :
    due (roundWord kind x k :: rest) = 2 := by
  cases kind <;> rfl

/-- Only DELAYs add up. -/
theorem due_le (l : List Instr) : due l ≤ l.length + 3 := by
  induction l with
  | nil => simp [due]
  | cons u rest ih => 
    cases u <;> simp [due, isMacro]; omega

/-- A padded pass begins with the pass or with one DELAY (R173). -/
theorem due_padPass (b : Config.BuildFlags) {p : Instr} (hp : isMacro p = false) (rest : List Instr) :
    due (padPass b p ++ rest) ≤ 1 := by
  unfold padPass
  split <;> simp [due, due_of_head hp]

/-- A round kind's expansion begins with a padded pass (R140 to R143). -/
theorem due_roundExpansion (b : Config.BuildFlags) (kind : RoundKind) (x : Target) (k : KeySel) (rest : List Instr) :
    due (roundExpansion b kind x k ++ rest) ≤ 1 := by
  simp only [roundExpansion]
  cases kind <;> simp only [roundPasses, List.flatMap_cons, List.append_assoc] <;> exact due_padPass b rfl _

/-- A call group begins with a round kind's word or with DECOY_FILL (R175). -/
theorem due_groupExpansion (kind : RoundKind) (x : Target) (n : Fin 11) {cnt : Nat} (pos : Nat) (hcnt : 1 ≤ cnt)
    (rest : List Instr) : due (groupExpansion kind x n cnt pos ++ rest) ≤ 2 := by
  obtain ⟨m, rfl⟩ := Nat.exists_eq_add_of_le' hcnt
  cases pos <;> simp [groupExpansion, List.range_succ_eq_map, invocation, due_roundWord, due, isMacro]

/-- Each replacement leaves fewer due. -/
theorem Expands.due_lt {b : Config.BuildFlags} {c : Command} {u : Instr} {l : List Instr} (h : Expands b c u l)
    (rest : List Instr) : due (l ++ rest) < due (u :: rest) := by
  cases h with
  | round kind x k =>
    rw [due_roundWord]
    exact Nat.lt_succ_of_le (due_roundExpansion b kind x k rest)
  | delay d n => cases n <;> simp [List.replicate_succ, due, isMacro]
  | group kind x n pos hcnt => exact Nat.lt_succ_of_le (due_groupExpansion kind x n pos hcnt rest)
  | dual => simp [dualExpansion, due, isMacro]

/-! ### The invariant, before and after `settle` -/

/-- The sequencer's invariant but for the head of its list: what a turn leaves, before `settle` (R72, R79). -/
def State.ListOk (s : State) : Prop :=
  ∀ (c : Command) (l : List Instr), s.seq = .running c l →
    commandPresent s.config c = true ∧ AllProduced s.config c l

namespace State.ListOk

theorem of_idle {s : State} (hs : s.seq = .idle) : s.ListOk := by
  intro c l h
  rw [hs] at h
  cases h

theorem of_running {s : State} {c : Command} {l : List Instr} (hs : s.seq = .running c l)
    (hc : commandPresent s.config c = true) (hl : AllProduced s.config c l) : s.ListOk := by
  intro c' l' h
  cases hs.symm.trans h
  exact ⟨hc, hl⟩

/-- `ListOk` reads the build and the sequencer alone. -/
theorem of_same {s t : State} (h : s.ListOk) (hc : t.config = s.config) (hq : t.seq = s.seq) : t.ListOk := by
  intro c l ht
  rw [hc]
  exact h c l (hq.symm.trans ht)

end State.ListOk

theorem seqOk_of_idle {s : State} (hs : s.seq = .idle) : s.seqOk = true := by
  simp [State.seqOk, hs]

/-- The sequencer's invariant while a list is running, clause by clause. -/
theorem seqOk_iff_of_running {s : State} {c : Command} {u : Instr} {rest : List Instr}
    (hs : s.seq = .running c (u :: rest)) :
    s.seqOk = true ↔
      commandPresent s.config c = true ∧ isMacro u = false ∧ AllProduced s.config c (u :: rest) := by
  simp [State.seqOk, hs, AllProduced, and_assoc]

/-- An empty list is not left running. -/
theorem seqOk_eq_false_of_nil {s : State} {c : Command} (hs : s.seq = .running c []) : s.seqOk = false := by
  simp [State.seqOk, hs]

theorem listOk_of_seqOk {s : State} (h : s.seqOk = true) : s.ListOk := by
  intro c l hs
  cases l with
  | nil => cases (seqOk_eq_false_of_nil hs).symm.trans h
  | cons u rest =>
    obtain ⟨hc, -, hl⟩ := (seqOk_iff_of_running hs).1 h
    exact ⟨hc, hl⟩

/-! ### `settle` -/

theorem settleFor_of_idle {s : State} (hs : s.seq = .idle) (n : Nat) : settleFor n s = s := by
  cases n <;> simp [settleFor, hs]

theorem settleFor_of_head {s : State} {c : Command} {u : Instr} {rest : List Instr} (hs : s.seq = .running c (u :: rest))
    (hu : isMacro u = false) (n : Nat) : settleFor n s = s := by
  cases n <;> simp [settleFor, hs, hu]

theorem settleFor_of_nil {s : State} {c : Command} (hs : s.seq = .running c []) (n : Nat) :
    settleFor (n + 1) s = s.endCommand c := by
  simp [settleFor, hs]

theorem settleFor_of_macro {s t : State} {c : Command} {u : Instr} {rest : List Instr}
    (hs : s.seq = .running c (u :: rest)) (hu : isMacro u = true)
    (ht : exec u (s.putSeq (.running c rest)) = .next t) (n : Nat) : settleFor (n + 1) s = settleFor n t := by
  simp [settleFor, hs, hu, ht]

theorem endCommand_seq (s : State) (c : Command) : (s.endCommand c).seq = .idle := by
  unfold State.endCommand
  split <;> rfl

/-- With fuel for the replacements due, `settleFor` ends in a state that meets the invariant: at Idle, or with a micro-step
at the head. -/
theorem settleFor_seqOk {n : Nat} {s : State} {c : Command} {l : List Instr} (hs : s.seq = .running c l)
    (hc : commandPresent s.config c = true) (hl : AllProduced s.config c l) (fuel : due l ≤ n) :
    (settleFor n s).seqOk = true := by
  induction n using Nat.strongRecOn generalizing s l with
  | _ n ih =>
    cases l with
    | nil =>
      obtain ⟨m, rfl⟩ : ∃ m, n = m + 1 := Nat.exists_eq_add_of_le' fuel
      rw [settleFor_of_nil hs]
      exact seqOk_of_idle (endCommand_seq s c)
    | cons u rest =>
      cases hu : isMacro u with
      | false =>
        rw [settleFor_of_head hs hu]
        exact (seqOk_iff_of_running hs).2 ⟨hc, hu, hl⟩
      | true =>
        obtain ⟨hup, hrest⟩ := AllProduced.cons_iff.1 hl
        obtain ⟨r, e, he, hexp, hq, hb⟩ :=
          exec_macro_of_produced (s := s.putSeq (.running c rest)) (c := c) rfl hu hup
        have fewer : due (e ++ rest) < n := Nat.lt_of_lt_of_le (hexp.due_lt rest) fuel
        obtain ⟨m, rfl⟩ : ∃ m, n = m + 1 := Nat.exists_eq_add_of_le' (Nat.one_le_of_lt fewer)
        have hb' : (r.prepend e).config = s.config := by simpa [prepend_running hq] using hb
        rw [settleFor_of_macro hs hu he]
        refine ih m m.lt_succ_self (l := e ++ rest) (by simp [prepend_running hq]) (hb' ▸ hc) ?_
          (Nat.le_of_lt_succ fewer)
        rw [hb']
        exact AllProduced.append_iff.2 ⟨hexp.allProduced hup, hrest⟩

/-- `settle` has that fuel. -/
theorem settle_seqOk {s : State} (h : s.ListOk) : (settle s).seqOk = true := by
  cases hs : s.seq with
  | idle =>
    rw [settle_of_idle hs]
    exact seqOk_of_idle hs
  | running c l =>
    obtain ⟨hc, hl⟩ := h c l hs
    have fuel : due l ≤ settleFuel s := by
      simpa [settleFuel, hs] using Nat.le_trans (due_le l) (Nat.le_succ _)
    exact settleFor_seqOk hs hc hl fuel

/-! ### A turn -/

namespace State.ListOk

theorem of_coreWork {s t : State} (h : s.ListOk) (hw : CoreWork s t) : t.ListOk := h.of_same hw.config hw.seq

/-- An accepted command starts with a list of its own (R72). -/
theorem accept {s : State} {c : Command} (hc : commandPresent s.config c = true) : (s.accept c).ListOk :=
  .of_running rfl hc (allProduced_commandSteps s.config c)

/-- Executing an entry that is not expanded leaves the list, or starts a command. -/
theorem of_effect {s t : State} {i : Instr} (h : s.ListOk) (hi : isMacro i = false) (he : Effect s i t) : t.ListOk := by
  cases he with
  | work hw => exact h.of_coreWork hw
  | schedule _ hw => exact (h.of_coreWork hw).of_same rfl rfl
  | mismatch hw => exact (h.of_coreWork hw).of_same rfl rfl
  | expansion hu => cases hi.symm.trans hu
  | store _ d => cases d <;> exact h.of_same rfl rfl
  | accept _ hc => exact .accept hc
  | refuse => exact h.of_same rfl rfl

theorem corrupt {s : State} (h : s.ListOk) (b : HwByte) (v : Byte) : (s.corrupt b v).ListOk := by
  refine h.of_same (corrupt_config s b v) ?_
  cases b with
  | data d => cases d <;> rfl
  | dfaCopy | scrState | scrKey => rfl

/-- A turn from a state that meets the invariant: the head the sequencer performs is not one to be expanded. -/
theorem of_turn {s t : State} {a : Turn} (h : s.seqOk = true) (ht : TurnEffect s a t) : t.ListOk := by
  have hs := listOk_of_seqOk h
  cases ht with
  | silent => exact hs
  | instr _ hi before he after =>
    exact ((hs.of_coreWork before.coreWork).of_effect hi (.of_exec he)).of_coreWork after.coreWork
  | microStep hq he =>
    obtain ⟨hc, hu, hl⟩ := (seqOk_iff_of_running hq).1 h
    exact (of_running (s := (s.putSeq _).note _) rfl hc (AllProduced.cons_iff.1 hl).2).of_effect hu (.of_exec he)
  | reset => exact of_idle rfl
  | corrupt b v => exact (hs.corrupt b v).of_same rfl rfl

end State.ListOk

/-- Settles O9: a turn keeps the list's entries produced, and `settle` restores the rest of the invariant. -/
theorem everyStepKeepsTheSequencerInvariant : Obligations.EveryStepKeepsTheSequencerInvariant := by
  unfold Obligations.EveryStepKeepsTheSequencerInvariant
  intro s t h hstep
  obtain ⟨r, hr, rfl⟩ := TurnEffect.of_step hstep
  have hdrop : s.dropTurn.seqOk = true := h
  exact settle_seqOk (.of_turn hdrop hr)

/-- Settles O8: the sequencer starts at Idle. -/
theorem sequencerInvariantAtReset : Obligations.SequencerInvariantAtReset := fun _ => seqOk_of_idle rfl

end Sys2Proof.Machine
end

section
/-!
SUPPORT. What whole steps and host accesses leave: the ghosts (R36), the buffers the sequencer does not write (R23 to
R26), what a reset leaves (R230 to R232), and the hidden state no host access reaches (R35).
-/
namespace Sys2Proof.Machine

/-! ### The ghosts -/

@[simp] theorem envReset_faults (s : State) : s.envReset.faults = s.faults := by simp [State.envReset]

@[simp] theorem envReset_refused (s : State) : s.envReset.refused = s.refused := by simp [State.envReset]

@[simp] theorem envReset_mismatch (s : State) : s.envReset.mismatch = s.mismatch := by simp [State.envReset]

/-- From `s` to `t` the ghosts only grow, `mismatch` by `n` (R36, R231). -/
structure GhostsGrow (n : Nat) (s t : State) : Prop where
  faults : s.faults <+: t.faults
  refused : s.refused = true → t.refused = true
  mismatch : t.mismatch = s.mismatch + n

namespace GhostsGrow

theorem trans {m n : Nat} {s t u : State} (h : GhostsGrow m s t) (k : GhostsGrow n t u) : GhostsGrow (m + n) s u :=
  ⟨h.faults.trans k.faults, k.refused ∘ h.refused, by rw [k.mismatch, h.mismatch, Nat.add_assoc]⟩

/-- The ghosts as they were. -/
theorem of_same {s t : State} (hf : t.faults = s.faults) (hr : t.refused = s.refused) (hm : t.mismatch = s.mismatch) :
    GhostsGrow 0 s t :=
  ⟨hf ▸ List.prefix_refl _, fun h => hr.trans h, hm⟩

theorem of_coreWork {s t : State} (h : CoreWork s t) : GhostsGrow 0 s t :=
  ⟨h.faults, fun hr => h.refused.trans hr, h.mismatch⟩

theorem of_onlyHidden {s t : State} (h : OnlyHidden s t) : GhostsGrow 0 s t := by
  obtain ⟨_, _, _, _, _, _, rfl⟩ := h
  exact of_same rfl rfl rfl

/-- Only a failed comparison counts, and it counts one (R182). -/
theorem of_effect {i : Instr} {s t : State} (h : Effect s i t) : ∃ n ≤ 1, GhostsGrow n s t := by
  cases h with
  | work hw => exact ⟨0, Nat.zero_le 1, of_coreWork hw⟩
  | schedule _ hw => exact ⟨0, Nat.zero_le 1, hw.faults, fun hr => hw.refused.trans hr, hw.mismatch⟩
  | mismatch hw => exact ⟨1, Nat.le_refl 1, hw.faults, fun hr => hw.refused.trans hr, congrArg (· + 1) hw.mismatch⟩
  | expansion _ hh => exact ⟨0, Nat.zero_le 1, of_onlyHidden hh⟩
  | store _ d => exact ⟨0, Nat.zero_le 1, by cases d <;> exact of_same rfl rfl rfl⟩
  | accept => exact ⟨0, Nat.zero_le 1, of_same rfl rfl rfl⟩
  | refuse => exact ⟨0, Nat.zero_le 1, List.prefix_refl _, fun _ => rfl, rfl⟩

theorem corrupt (s : State) (b : HwByte) (v : Byte) : GhostsGrow 0 s (s.corrupt b v) := by
  cases b with
  | data d => cases d <;> exact of_same rfl rfl rfl
  | dfaCopy | scrState | scrKey => exact of_same rfl rfl rfl

/-- A turn executes one instruction at most. -/
theorem of_turn {a : Turn} {s t : State} (h : TurnEffect s a t) : ∃ n ≤ 1, GhostsGrow n s t := by
  cases h with
  | silent => exact ⟨0, Nat.zero_le 1, of_same rfl rfl rfl⟩
  | instr _ _ before he after =>
    obtain ⟨n, hn, hg⟩ := of_effect (.of_exec he)
    refine ⟨n, hn, ?_⟩
    simpa using ((of_coreWork before.coreWork).trans hg).trans (of_coreWork after.coreWork)
  | microStep _ he =>
    obtain ⟨n, hn, hg⟩ := of_effect (.of_exec he)
    exact ⟨n, hn, hg.faults, hg.refused, hg.mismatch⟩
  | reset => exact ⟨0, Nat.zero_le 1, of_same (by simp) (by simp) (by simp)⟩
  | corrupt b v =>
    have hg := corrupt s b v
    exact ⟨0, Nat.zero_le 1, hg.faults, hg.refused, hg.mismatch⟩

end GhostsGrow

/-- Settles O13: a turn lets the ghosts grow, by one mismatch at most, and `settle` leaves them. -/
theorem ghostsAreNeverCleared : Obligations.GhostsAreNeverCleared := by
  unfold Obligations.GhostsAreNeverCleared
  intro s t h
  obtain ⟨r, hr, rfl⟩ := TurnEffect.of_step h
  obtain ⟨n, hn, hg⟩ := GhostsGrow.of_turn hr
  obtain ⟨faults, refused, mismatch⟩ := hg.trans (.of_onlyHidden (settle_only r))
  obtain ⟨l, hl⟩ := faults
  refine ⟨⟨l, hl.symm⟩, refused, ?_⟩
  have count : (settle r).mismatch = s.mismatch + n := mismatch
  omega

/-! ### The host's own buffers -/

/-- `t` holds the IV, KEY and SEED of `s`, with their `written` bits. -/
structure KeepsHostBuffers (s t : State) : Prop where
  iv : t.iv = s.iv
  key : t.key = s.key
  seed : t.seed = s.seed
  writtenIv : t.written.iv = s.written.iv
  writtenKey : t.written.key = s.written.key
  writtenSeed : t.written.seed = s.written.seed

/-- `t` holds the SCHED of `s`, with its `written` bits. -/
structure KeepsSched (s t : State) : Prop where
  sched : t.sched = s.sched
  written : t.written.sched = s.written.sched

namespace KeepsHostBuffers

theorem of_coreWork {s t : State} (h : CoreWork s t) : KeepsHostBuffers s t :=
  ⟨h.iv, h.key, h.seed, h.writtenIv, h.writtenKey, h.writtenSeed⟩

/-- While BUSY is 1 no instruction writes them, a host write included (R57). -/
theorem of_effect {i : Instr} {s t : State} (busy : s.busy = true) (h : Effect s i t) : KeepsHostBuffers s t := by
  cases h with
  | work hw => exact of_coreWork hw
  | schedule _ hw => exact ⟨hw.iv, hw.key, hw.seed, hw.writtenIv, hw.writtenKey, hw.writtenSeed⟩
  | mismatch hw => exact ⟨hw.iv, hw.key, hw.seed, hw.writtenIv, hw.writtenKey, hw.writtenSeed⟩
  | expansion _ hh =>
    obtain ⟨_, _, _, _, _, _, rfl⟩ := hh
    exact ⟨rfl, rfl, rfl, rfl, rfl, rfl⟩
  | store idle | accept idle | refuse idle => cases busy.symm.trans idle

theorem settle {s t : State} (h : KeepsHostBuffers s t) : KeepsHostBuffers s (settle t) := by
  obtain ⟨_, _, _, _, _, _, ht⟩ := settle_only t
  rw [ht]
  exact ⟨h.iv, h.key, h.seed, h.writtenIv, h.writtenKey, h.writtenSeed⟩

/-- The sequencer performs its head while BUSY is 1 (R31, R76). -/
theorem of_coreTurn {s t : State} (h : TurnEffect s .core t) : KeepsHostBuffers s t := by
  cases h with
  | silent => exact ⟨rfl, rfl, rfl, rfl, rfl, rfl⟩
  | instr ha => exact absurd rfl ha
  | microStep _ he =>
    obtain ⟨iv, key, seed, writtenIv, writtenKey, writtenSeed⟩ := of_effect rfl (.of_exec he)
    exact ⟨iv, key, seed, writtenIv, writtenKey, writtenSeed⟩

end KeepsHostBuffers

namespace KeepsSched

/-- While BUSY is 1 only KEY_COPY and KEY_WORD write SCHED (R123, R124). -/
theorem of_effect {i : Instr} {s t : State} (busy : s.busy = true) (hi : ¬(i = .keyCopy ∨ ∃ j, i = .keyWord j))
    (h : Effect s i t) : KeepsSched s t := by
  cases h with
  | work hw => exact ⟨hw.sched, hw.writtenSched⟩
  | schedule hk => exact absurd hk hi
  | mismatch hw => exact ⟨hw.sched, hw.writtenSched⟩
  | expansion _ hh =>
    obtain ⟨_, _, _, _, _, _, rfl⟩ := hh
    exact ⟨rfl, rfl⟩
  | store idle | accept idle | refuse idle => cases busy.symm.trans idle

theorem settle {s t : State} (h : KeepsSched s t) : KeepsSched s (settle t) := by
  obtain ⟨_, _, _, _, _, _, ht⟩ := settle_only t
  rw [ht]
  exact ⟨h.sched, h.written⟩

end KeepsSched

/-- The rules of the cipher commands list neither KEY_COPY nor KEY_WORD (R79). -/
theorem not_writesSched_of_produced {b : Config.BuildFlags} {c : Command} {u : Instr} (hc : c.isCipher = true)
    (hu : produced b c u = true) : ¬(u = .keyCopy ∨ ∃ j, u = .keyWord j) := by
  intro h
  have key : c = .expandKey := by
    rcases h with rfl | ⟨j, rfl⟩
    · exact eq_of_beq hu
    · exact eq_of_beq (Bool.and_eq_true_iff.1 hu).1
  subst key
  cases hc

/-- Under the invariant the sequencer's turn in a cipher command performs an entry that leaves SCHED (R25). -/
theorem KeepsSched.of_coreTurn {s t : State} {c : Command} {l : List Instr} (hok : s.ListOk) (hs : s.seq = .running c l)
    (hc : c.isCipher = true) (h : TurnEffect s .core t) : KeepsSched s t := by
  cases h with
  | silent => exact ⟨rfl, rfl⟩
  | instr ha => exact absurd rfl ha
  | microStep hq he =>
    cases hs.symm.trans hq
    have hu := (AllProduced.cons_iff.1 (hok _ _ hs).2).1
    obtain ⟨sched, written⟩ := of_effect rfl (not_writesSched_of_produced hc hu) (.of_exec he)
    exact ⟨sched, written⟩

/-- Settles O42: the sequencer acts while BUSY is 1, so what it executes writes no buffer of the host's, and in a cipher
command it is neither KEY_COPY nor KEY_WORD. -/
theorem sequencerLeavesTheHostsBuffers : Obligations.SequencerLeavesTheHostsBuffers := by
  unfold Obligations.SequencerLeavesTheHostsBuffers
  intro s t turn h
  obtain ⟨r, hr, rfl⟩ := TurnEffect.of_step h
  rw [turn] at hr
  refine ⟨?_, fun c rest hok hs hc => ?_⟩
  · obtain ⟨iv, key, seed, writtenIv, writtenKey, writtenSeed⟩ := (KeepsHostBuffers.of_coreTurn hr).settle
    exact ⟨iv, key, seed, writtenIv, writtenKey, writtenSeed⟩
  · obtain ⟨sched, written⟩ := (KeepsSched.of_coreTurn (s := s.dropTurn) (listOk_of_seqOk hok) hs hc hr).settle
    exact ⟨sched, written⟩

/-! ### An environment reset -/

/-- A reset turn is the reset itself: it leaves no list to settle (R230). -/
theorem step_of_reset {s : State} (turn : s.nextTurn = .reset) :
    step s = .next (s.dropTurn.envReset.note .reset) := by
  simp only [step, turn, takeTurn, mapNext]
  rw [settle_of_idle rfl]

/-- A host read of an unwritten byte of a data buffer is a draw (R55, R57). -/
theorem exec_hostRd_of_unwritten {s : State} {a : Byte} {d : DataByte} (ha : locate a = .data d)
    (hd : s.isWritten d = false) :
    exec (.hostRd a) s = .next { s with readData := Config.freeByte s.draws, draws := s.draws + 1 } := by
  simp [exec, execHostRd, State.hostRead, ha, hd, State.drawByte, State.spend, State.putReadData]

/-- Settles O14: what a reset leaves is read off `State.envReset`, and every byte it leaves is unwritten. -/
theorem environmentResetForgetsTheBuffers : Obligations.EnvironmentResetForgetsTheBuffers := by
  unfold Obligations.EnvironmentResetForgetsTheBuffers
  intro s turn
  have unwritten : ∀ d, (s.dropTurn.envReset.note .reset).isWritten d = false := isWritten_of_clear rfl
  refine ⟨_, step_of_reset turn, rfl, rfl, unwritten, fun a d ha => exec_hostRd_of_unwritten ha (unwritten d), ?_⟩
  simp

/-! ### Hidden state -/

/-- `s` with other values in `prng`, DFA_COPY, SCR_STATE and SCR_KEY. -/
def State.withHidden (s : State) (p : Config.PrngState) (x y z : Block) : State :=
  { s with prng := p, dfaCopy := x, scrState := y, scrKey := z }

section Hidden

variable (s : State) (p : Config.PrngState) (x y z : Block)

theorem storeByte_withHidden (d : DataByte) (v : Byte) :
    (s.withHidden p x y z).storeByte d v = (s.storeByte d v).withHidden p x y z := by
  cases d <;> rfl

theorem writeCmd_withHidden (v : Byte) : (s.withHidden p x y z).writeCmd v = (s.writeCmd v).withHidden p x y z := by
  unfold State.writeCmd
  split
  · change (if commandPresent s.config _ then _ else _) = _
    split <;> rfl
  · rfl

/-- What a host write changes does not depend on the hidden state. -/
theorem hostWrite_withHidden (a v : Byte) :
    (s.withHidden p x y z).hostWrite a v = (s.hostWrite a v).withHidden p x y z := by
  cases hb : s.busy with
  | true =>
    have hb' : (s.withHidden p x y z).busy = true := hb
    rw [hostWrite_of_busy hb, hostWrite_of_busy hb']
    rfl
  | false =>
    have hb' : (s.withHidden p x y z).busy = false := hb
    simp only [State.hostWrite, hb, hb', Bool.false_eq_true, if_false]
    split
    · exact storeByte_withHidden ..
    · exact writeCmd_withHidden ..
    all_goals rfl

/-- What a host read answers does not depend on the hidden state. -/
theorem hostRead_withHidden (a : Byte) :
    (s.withHidden p x y z).hostRead a = ((s.hostRead a).1, (s.hostRead a).2.withHidden p x y z) := by
  unfold State.hostRead
  split
  · change (if s.busy || !s.isWritten _ then _ else _) = _
    split <;> rfl
  all_goals rfl

/-- Neither does what a host access instruction answers. -/
theorem exec_hostRd_withHidden (a : Byte) :
    exec (.hostRd a) (s.withHidden p x y z) = mapNext (·.withHidden p x y z) (exec (.hostRd a) s) := by
  simp only [exec, execHostRd, hostRead_withHidden]
  rfl

theorem exec_hostWr_withHidden (a v : Byte) :
    exec (.hostWr a v) (s.withHidden p x y z) = mapNext (·.withHidden p x y z) (exec (.hostWr a v) s) := by
  simp only [exec, execHostWr, hostWrite_withHidden]
  rfl

end Hidden

/-- An instruction that does not depend on the hidden state leaves it: executed with the hidden state `s` has, it answers
that hidden state again. -/
theorem hidden_of_withHidden {i : Instr} {s t : State}
    (hi : ∀ p x y z, exec i (s.withHidden p x y z) = mapNext (·.withHidden p x y z) (exec i s))
    (h : exec i s = .next t) :
    t.prng = s.prng ∧ t.dfaCopy = s.dfaCopy ∧ t.scrState = s.scrState ∧ t.scrKey = s.scrKey := by
  have own : exec i s = mapNext (·.withHidden s.prng s.dfaCopy s.scrState s.scrKey) (exec i s) :=
    hi s.prng s.dfaCopy s.scrState s.scrKey
  rw [h] at own
  have ht : t = t.withHidden s.prng s.dfaCopy s.scrState s.scrKey := Host.Outcome.next.inj own
  rw [ht]
  exact ⟨rfl, rfl, rfl, rfl⟩

/-- Settles O23: both accesses answer the same whatever the hidden state, and so leave it; a read leaves the list too. -/
theorem hostAccessNeverReachesHiddenState : Obligations.HostAccessNeverReachesHiddenState := by
  unfold Obligations.HostAccessNeverReachesHiddenState
  intro s a v p x y z
  refine ⟨exec_hostRd_withHidden s p x y z a, exec_hostWr_withHidden s p x y z a v, fun t h => ?_, fun t h => ?_⟩
  · obtain ⟨prng, copy, scrState, scrKey⟩ :=
      hidden_of_withHidden (fun p x y z => exec_hostRd_withHidden s p x y z a) h
    obtain rfl := Host.Outcome.next.inj h
    exact ⟨prng, copy, scrState, scrKey, (CoreWork.hostRead s a _).seq⟩
  · exact hidden_of_withHidden (fun p x y z => exec_hostWr_withHidden s p x y z a v) h

end Sys2Proof.Machine
end

section
/-!
SUPPORT. The host's accesses (20_memory R52 to R57): the register map, and what a read and a write do at each kind of
address.
-/
namespace Sys2Proof.Machine

/-! ### The register map (R52) -/

/-- Settles O4: each range of the table is one branch of `locate`. -/
theorem registerMapIsTheTable : Obligations.RegisterMapIsTheTable := by
  unfold Obligations.RegisterMapIsTheTable
  refine ⟨?_, ?_, ?_, ?_, rfl, rfl, rfl, ?_, ?_, ?_⟩ <;> intro j
  case refine_5 | refine_7 => simp (disch := omega) [locate, Nat.mod_eq_of_lt, dif_neg, if_neg]
  all_goals simp (disch := omega) [locate, Nat.mod_eq_of_lt, dif_neg, if_neg, dif_pos]

/-- The address of a byte of a data buffer (R52). -/
def dataAddress : DataByte → Nat
  | .state j => j.val
  | .iv j => 0x10 + j.val
  | .key j => 0x20 + j.val
  | .seed j => 0x30 + j.val
  | .sched j => 0x40 + j.val

theorem toNat_of_locate {a : Byte} {d : DataByte} (h : locate a = .data d) : a.toNat = dataAddress d := by
  simp only [locate] at h
  repeat' split at h
  all_goals cases h
  case isTrue => rfl
  all_goals
    simp only [dataAddress]
    omega

/-- Two addresses of one byte are one address. -/
theorem eq_of_locate {a a' : Byte} {d : DataByte} (h : locate a = .data d) (h' : locate a' = .data d) : a = a' :=
  BitVec.eq_of_toNat_eq ((toNat_of_locate h).trans (toNat_of_locate h').symm)

/-! ### One byte of a data buffer (R56) -/

section StoreByte

variable (s : State) {d d' : DataByte} (v : Byte)

@[simp] theorem byteAt_storeByte : (s.storeByte d v).byteAt d = v := by
  cases d <;> simp [State.storeByte, State.setByte, State.markWritten, State.byteAt]

@[simp] theorem isWritten_storeByte : (s.storeByte d v).isWritten d = true := by
  cases d <;> simp [State.storeByte, State.setByte, State.markWritten, State.isWritten]

@[simp] theorem busy_storeByte : (s.storeByte d v).busy = s.busy := by
  cases d <;> rfl

theorem getElem_set_of_ne {α : Type} {n : Nat} (w : Vector α n) (x : α) {i j : Fin n} (h : j ≠ i) :
    (w.set i x)[j] = w[j] :=
  Vector.getElem_set_ne _ _ fun e => h (Fin.ext e.symm)

/-- Every other byte keeps its value and its `written` bit. -/
theorem storeByte_of_ne (h : d' ≠ d) :
    (s.storeByte d v).byteAt d' = s.byteAt d' ∧ (s.storeByte d v).isWritten d' = s.isWritten d' := by
  cases d <;> cases d'
  case state.state | iv.iv | key.key | seed.seed | sched.sched =>
    exact ⟨getElem_set_of_ne _ _ fun e => h (e ▸ rfl), getElem_set_of_ne _ _ fun e => h (e ▸ rfl)⟩
  all_goals exact ⟨rfl, rfl⟩

/-- A stored byte leaves everything but the data buffers and their `written` bits. -/
theorem storeByte_frame (d : DataByte) :
    s.storeByte d v = { s with
      state := (s.storeByte d v).state, iv := (s.storeByte d v).iv, key := (s.storeByte d v).key,
      seed := (s.storeByte d v).seed, sched := (s.storeByte d v).sched, written := (s.storeByte d v).written } := by
  cases d <;> rfl

end StoreByte

/-! ### Host writes (R56, R57) -/

theorem exec_hostWr_of_data {s : State} {a : Byte} {d : DataByte} (idle : s.busy = false) (ha : locate a = .data d)
    (v : Byte) : exec (.hostWr a v) s = .next (s.storeByte d v) := by
  simp [exec, execHostWr, State.hostWrite, idle, ha]

/-- Settles O19: a write to a data buffer is `storeByte`, and no other address of the three kinds stores anything. -/
theorem idleHostWriteStoresOneByte : Obligations.IdleHostWriteStoresOneByte := by
  unfold Obligations.IdleHostWriteStoresOneByte
  intro s a v idle
  refine ⟨fun d ha => ⟨_, exec_hostWr_of_data idle ha v, byteAt_storeByte s v, isWritten_storeByte s v,
    fun d' hd => storeByte_of_ne s v hd, storeByte_frame s v d⟩, ?_⟩
  rintro (ha | ha | ha) <;> simp [exec, execHostWr, State.hostWrite, idle, ha]

/-- Settles O17: each instruction is the write of its byte to CMD, which the model accepts, refuses or records. -/
theorem commandInstructionsIssueTheirByte : Obligations.CommandInstructionsIssueTheirByte := by
  unfold Obligations.CommandInstructionsIssueTheirByte
  intro s c
  have issue : exec c.instr s = .next (s.hostWrite cmdAddress c.byte) := by cases c <;> rfl
  have byte : decodeCommand c.byte = some c := by cases c <;> rfl
  rw [issue]
  refine ⟨fun idle present => ?_, fun idle absent => ?_, fun busy => ?_⟩
  · rw [hostWrite_accept idle present]
    rfl
  · simp [State.hostWrite, idle, locate_cmdAddress, State.writeCmd, byte, absent, State.refuse]
  · rw [hostWrite_of_busy busy]
    rfl

/-! ### Host reads (R55, R57) -/

/-- What a read at an address answers: the byte `v`, and the state `r` with it in `readData`. -/
theorem exec_hostRd_of_hostRead {s r : State} {a v : Byte} (h : s.hostRead a = (v, r)) :
    exec (.hostRd a) s = .next { r with readData := v } := by
  simp [exec, execHostRd, h, State.putReadData]

theorem hostRead_of_written {s : State} {a : Byte} {d : DataByte} (idle : s.busy = false) (ha : locate a = .data d)
    (hd : s.isWritten d = true) : s.hostRead a = (s.byteAt d, s) := by
  simp [State.hostRead, ha, idle, hd]

theorem hostRead_of_config {s : State} {a : Byte} (ha : locate a = .config) : s.hostRead a = (s.configByte, s) := by
  simp [State.hostRead, ha]

theorem hostRead_of_status {s : State} {a : Byte} (ha : locate a = .status) : s.hostRead a = (s.statusByte, s) := by
  simp [State.hostRead, ha]

/-- CMD and the reserved addresses have nothing to read (R55). -/
theorem hostRead_of_void {s : State} {a : Byte} (ha : locate a = .cmd ∨ locate a = .reserved) :
    s.hostRead a = (0x00, s) := by
  rcases ha with ha | ha <;> simp [State.hostRead, ha]

theorem hostRead_of_busy {s : State} {a : Byte} {d : DataByte} (busy : s.busy = true) (ha : locate a = .data d) :
    s.hostRead a = (Config.freeByte s.draws, s.spend 1) := by
  simp [State.hostRead, ha, busy, State.drawByte]

/-- CONFIG bit by bit (R29). -/
theorem getLsbD_configByteOf (c : Config.BuildFlags) (i : Nat) :
    (configByteOf c).getLsbD i =
      match i with
      | 0 => c.encEn
      | 1 => c.rdelayEn
      | 2 => c.dummyEn
      | 3 => c.antidfaEn
      | _ => false := by
  change BitVec.getLsbD (w := 4 + 1 + 1 + 1 + 1) (0#4 ++ _ ++ _ ++ _ ++ _) i = _
  simp only [BitVec.getLsbD_append]
  match i with
  | 0 | 1 | 2 | 3 => simp
  | i + 4 => simp

/-- Settles O20: one read rule per kind of address, with BUSY = 0. -/
theorem idleHostReadReturnsTheByte : Obligations.IdleHostReadReturnsTheByte := by
  unfold Obligations.IdleHostReadReturnsTheByte
  intro s a idle
  have bit := getLsbD_configByteOf s.config
  have high : ∀ i, 4 ≤ i → s.configByte.getLsbD i = false := by
    intro i hi
    obtain ⟨j, rfl⟩ := Nat.exists_eq_add_of_le' hi
    exact bit (j + 4)
  refine ⟨fun d ha hd => exec_hostRd_of_hostRead (hostRead_of_written idle ha hd),
    fun d ha hd => exec_hostRd_of_unwritten ha hd, ?_,
    fun ha => ⟨_, exec_hostRd_of_hostRead (hostRead_of_config ha), bit 0, bit 1, bit 2, bit 3, high⟩⟩
  rintro (ha | ha | ha)
  · exact exec_hostRd_of_hostRead (hostRead_of_void (.inl ha))
  · exact exec_hostRd_of_hostRead (hostRead_of_void (.inr ha))
  · have status : s.statusByte = 0x00#8 := by simp [State.statusByte, idle]
    exact exec_hostRd_of_hostRead (status ▸ hostRead_of_status ha)

/-- Settles O21: the same rules with BUSY = 1, under which a data buffer reads as a draw and a write is a model fault. -/
theorem busyHostAccesses : Obligations.BusyHostAccesses := by
  unfold Obligations.BusyHostAccesses
  intro s a v busy
  have status : s.statusByte = 0x01#8 := by simp [State.statusByte, busy]
  refine ⟨fun ha => exec_hostRd_of_hostRead (status ▸ hostRead_of_status ha),
    fun ha => exec_hostRd_of_hostRead (hostRead_of_config ha),
    fun d ha => exec_hostRd_of_hostRead (hostRead_of_busy busy ha),
    fun ha => exec_hostRd_of_hostRead (hostRead_of_void ha), ?_⟩
  simp [exec, execHostWr, hostWrite_of_busy busy, State.record]

/-! ### A read after a write -/

theorem stored_of_data {s : State} {a : Byte} {d : DataByte} (ha : locate a = .data d) :
    s.stored a = if s.isWritten d then some (s.byteAt d) else none := by
  simp [State.stored, ha]

theorem stored_storeByte_of_ne (s : State) {a a' : Byte} {d : DataByte} (v : Byte) (ha : locate a = .data d)
    (h : a' ≠ a) : (s.storeByte d v).stored a' = s.stored a' := by
  cases ha' : locate a' with
  | data d' =>
    have hd : d' ≠ d := fun e => h (eq_of_locate (e ▸ ha') ha)
    obtain ⟨byte, bit⟩ := storeByte_of_ne s v hd
    rw [stored_of_data ha', stored_of_data ha', byte, bit]
  | cmd | status | config | reserved => simp [State.stored, ha']

/-- Settles O22: the byte is written when it is read, and the map sends every other address to another byte or to none. -/
theorem hostReadsBackWhatItWrote : Obligations.HostReadsBackWhatItWrote := by
  unfold Obligations.HostReadsBackWhatItWrote
  intro s a v d idle ha
  have read : (s.storeByte d v).hostRead a = (v, s.storeByte d v) := by
    rw [hostRead_of_written (by simpa using idle) ha (isWritten_storeByte s v), byteAt_storeByte]
  exact ⟨_, exec_hostWr_of_data idle ha v, exec_hostRd_of_hostRead read, by simp [stored_of_data ha],
    fun a' h => stored_storeByte_of_ne s v ha h⟩

end Sys2Proof.Machine
end

section
/-!
SUPPORT. Model faults (60_exceptions R205): what each instruction records, and that one instruction's faults stand in the
order of R205.
-/
namespace Sys2Proof.Machine

/-! ### What an instruction records -/

theorem storeByte_faults (s : State) (d : DataByte) (v : Byte) : (s.storeByte d v).faults = s.faults := by
  rw [storeByte_frame]

theorem writeCmd_faults (s : State) (v : Byte) : (s.writeCmd v).faults = s.faults := by
  unfold State.writeCmd
  split
  · split <;> rfl
  · rfl

/-- A host write records its one model fault while BUSY is 1, and none at Idle (R56, R57, R72). -/
theorem hostWrite_faults (s : State) (a d : Byte) :
    (s.hostWrite a d).faults = s.faults ++ if s.busy then [.hostWriteWhileBusy a d] else [] := by
  cases busy : s.busy with
  | true => simp [hostWrite_of_busy busy]
  | false =>
    suffices (s.hostWrite a d).faults = s.faults by simpa using this
    cases ha : locate a with
    | data b => simp [State.hostWrite, busy, ha, storeByte_faults]
    | cmd => simp [State.hostWrite, busy, ha, writeCmd_faults]
    | status | config | reserved => simp [State.hostWrite, busy, ha]

theorem hostRead_faults (s : State) (a v : Byte) : ((s.hostRead a).2.putReadData v).faults = s.faults := by
  obtain h | h := hostRead_state s a <;> rw [h] <;> rfl

theorem coreRead_faults {n : Nat} (s : State) (e : DataBuf) (off : Nat) (v : Vector Byte n) (w : Vector Bool n) :
    (s.coreRead e off v w).2.faults = s.faults ++ lostReads e off w := by
  rw [coreRead_frame]

theorem transform_faults (s : State) (x : Target) (f : Block → Block) :
    (s.transform x f).faults = s.faults ++ s.targetFaults x := by
  obtain ⟨a, -, -, frame⟩ := transform_spec s x f
  rw [frame]

theorem writeTarget_faults (s : State) (x : Target) (b : Block) : (s.writeTarget x b).faults = s.faults := by
  cases x <;> rfl

/-- A pass with a second operand records the faults of reading its target, then those of that operand. -/
theorem combine_faults {s : State} {x : Target} {g : State → Block × State} {l : List Fault}
    (hg : ∀ t : State, t.written = s.written → (g t).2.faults = t.faults ++ l) :
    (s.combine x g).faults = s.faults ++ (s.targetFaults x ++ l) := by
  have written : (s.readTarget x).2.written = s.written := by rw [(readTarget_spec s x).2]
  have target : (s.readTarget x).2.faults = s.faults ++ s.targetFaults x := by rw [(readTarget_spec s x).2]
  calc (s.combine x g).faults
    _ = (g (s.readTarget x).2).2.faults := writeTarget_faults ..
    _ = s.faults ++ (s.targetFaults x ++ l) := by rw [hg _ written, target, List.append_assoc]

theorem addRoundKey_faults (s : State) (x : Target) (k : KeySel) :
    (s.combine x fun t => t.readKey k).faults = s.faults ++ (s.targetFaults x ++ s.keyFaults k) := by
  refine combine_faults fun t written => ?_
  have key : t.keyFaults k = s.keyFaults k := by cases k <;> simp [State.keyFaults, written]
  rw [(readKey_spec t k).2, key]

theorem xorIv_faults (s : State) (x : Target) :
    (s.combine x State.readIv).faults = s.faults ++ (s.targetFaults x ++ lostReads .iv 0 s.written.iv) := by
  refine combine_faults fun t written => ?_
  rw [← written]
  exact coreRead_faults ..

theorem keyCopy_faults (s : State) : s.keyCopy.faults = s.faults ++ lostReads .key 0 s.written.key := by
  simp only [State.keyCopy, State.putSched_faults, State.readKeyBuf, coreRead_faults]

theorem keyWord_faults (s : State) (i : Fin 44) : (s.keyWord i).faults = s.faults ++ s.recorded (.keyWord i) := by
  simp only [State.keyWord, State.putSched_faults, State.readWord, coreRead_faults, List.append_assoc]
  rfl

theorem faults_of_onlyHidden {s t : State} (h : OnlyHidden s t) : t.faults = s.faults := by
  obtain ⟨_, _, _, _, _, _, rfl⟩ := h
  rfl

/-- The only state an outcome `.next r` answers is `r`. -/
theorem faults_of_next {s r t : State} {l : List Fault} (hr : r.faults = s.faults ++ l)
    (h : (.next r : Result) = .next t) : t.faults = s.faults ++ l := by
  cases h
  exact hr

/-- Both outcomes of the comparison record the faults of reading STATE (R182, R205). -/
theorem execDfaCompare_faults {s t : State} (h : execDfaCompare s = .next t) :
    t.faults = s.faults ++ lostReads .state 0 s.written.state := by
  have read : s.readState.2.faults = s.faults ++ lostReads .state 0 s.written.state := coreRead_faults ..
  simp only [execDfaCompare] at h
  split at h
  · exact faults_of_next read h
  · exact faults_of_next (by simpa using read) h

theorem execKeyWord_faults {i : Fin 44} {s t : State} (h : execKeyWord i s = .next t) :
    t.faults = s.faults ++ s.recorded (.keyWord i) := by
  unfold execKeyWord at h
  split at h
  · exact faults_of_next (keyWord_faults s i) h
  · cases h

theorem exec_faults {i : Instr} {s t : State} (h : exec i s = .next t) : t.faults = s.faults ++ s.recorded i := by
  have same : s.faults = s.faults ++ [] := (List.append_nil _).symm
  cases i with
  | expandKey | ecbEnc | ecbDec | cbcEnc | cbcDec | seed | hostWr => exact faults_of_next (hostWrite_faults s _ _) h
  | hostRd a => exact faults_of_next ((hostRead_faults s a _).trans same) h
  | subBytes x | invSubBytes x | shiftRows x | invShiftRows x | mixColumns x | invMixColumns x =>
    exact faults_of_next (transform_faults s x _) h
  | addRoundKey x k => exact faults_of_next (addRoundKey_faults s x k) h
  | xorIv x => exact faults_of_next (xorIv_faults s x) h
  | keyCopy => exact faults_of_next (keyCopy_faults s) h
  | dfaSnapshot =>
    exact faults_of_next (r := s.readState.2.putDfaCopy s.readState.1)
      (coreRead_faults s .state 0 s.state s.written.state) h
  | prngSeed =>
    exact faults_of_next (r := s.readSeed.2.putPrng (Config.prngSeed s.readSeed.1))
      (coreRead_faults s .seed 0 s.seed s.written.seed) h
  | keyWord i => exact execKeyWord_faults h
  | dfaCompare => exact execDfaCompare_faults h
  | round | lastRound | firstInvRound | invRound | delay | decoyGroup | dual =>
    exact (faults_of_onlyHidden (exec_macro rfl h)).trans same
  | idle => exact faults_of_next same h
  | decoyFill =>
    cases (decoyFillFillsTheScratchBuffers s).symm.trans h
    exact same
  | sboxLookup | invSboxLookup | gfMul =>
    cases h
    exact same

/-! ### The order of R205 -/

theorem mem_lostReads {n : Nat} {e : DataBuf} {off : Nat} {w : Vector Bool n} {f : Fault} (h : f ∈ lostReads e off w) :
    ∃ j < n, f = .unwrittenRead e (off + j) := by
  simp only [lostReads, List.mem_map, List.mem_filter, List.mem_range] at h
  obtain ⟨j, ⟨hj, -⟩, rfl⟩ := h
  exact ⟨j, hj, rfl⟩

theorem lostReads_pairwise {n : Nat} (e : DataBuf) (off : Nat) (w : Vector Bool n) :
    (lostReads e off w).Pairwise faultBefore := by
  refine List.Pairwise.map _ (fun i j (h : i < j) => ?_) (List.Pairwise.filter _ List.pairwise_lt_range)
  exact .inr ⟨rfl, Nat.add_lt_add_left h off⟩

/-- Two reads of an instruction, of buffers in R205's order, record in that order. -/
theorem lostReads_append_pairwise {m n : Nat} {e f : DataBuf} (h : bufRank e < bufRank f) (off off' : Nat)
    (v : Vector Bool m) (w : Vector Bool n) : (lostReads e off v ++ lostReads f off' w).Pairwise faultBefore := by
  refine List.pairwise_append.2 ⟨lostReads_pairwise .., lostReads_pairwise .., fun a ha b hb => ?_⟩
  obtain ⟨i, -, rfl⟩ := mem_lostReads ha
  obtain ⟨j, -, rfl⟩ := mem_lostReads hb
  exact .inl h

/-- Two reads of one buffer, the first of bytes below those of the second. -/
theorem lostReads_append_pairwise_of_le {m n : Nat} (e : DataBuf) {off off' : Nat} (h : off + m ≤ off')
    (v : Vector Bool m) (w : Vector Bool n) : (lostReads e off v ++ lostReads e off' w).Pairwise faultBefore := by
  refine List.pairwise_append.2 ⟨lostReads_pairwise .., lostReads_pairwise .., fun a ha b hb => ?_⟩
  obtain ⟨i, hi, rfl⟩ := mem_lostReads ha
  obtain ⟨j, -, rfl⟩ := mem_lostReads hb
  exact .inr ⟨rfl, by omega⟩

theorem targetFaults_pairwise (s : State) (x : Target) : (s.targetFaults x).Pairwise faultBefore := by
  cases x with
  | state => exact lostReads_pairwise ..
  | dfaCopy | scrState => exact .nil

theorem keyFaults_pairwise (s : State) (k : KeySel) : (s.keyFaults k).Pairwise faultBefore := by
  cases k with
  | round n => exact lostReads_pairwise ..
  | scratch => exact .nil

theorem busyFault_pairwise (b : Bool) (a v : Byte) :
    (if b then [Fault.hostWriteWhileBusy a v] else []).Pairwise faultBefore := by
  cases b
  · exact .nil
  · exact List.pairwise_singleton ..

theorem recorded_pairwise {i : Instr} (s : State) (wf : i.wf = true) : (s.recorded i).Pairwise faultBefore := by
  cases i with
  | expandKey | ecbEnc | ecbDec | cbcEnc | cbcDec | seed | hostWr => exact busyFault_pairwise ..
  | keyCopy | prngSeed | dfaSnapshot | dfaCompare => exact lostReads_pairwise ..
  | keyWord i =>
    have hi : 4 ≤ i.val := of_decide_eq_true wf
    exact lostReads_append_pairwise_of_le .sched (by omega) _ _
  | subBytes x | invSubBytes x | shiftRows x | invShiftRows x | mixColumns x | invMixColumns x =>
    exact targetFaults_pairwise s x
  | addRoundKey x k =>
    cases x with
    | state =>
      cases k with
      | round n => exact lostReads_append_pairwise (by decide) ..
      | scratch => simpa [State.recorded, State.keyFaults] using targetFaults_pairwise s .state
    | dfaCopy | scrState => exact keyFaults_pairwise s k
  | xorIv x =>
    cases x with
    | state => exact lostReads_append_pairwise (by decide) ..
    | dfaCopy | scrState => exact lostReads_pairwise ..
  | hostRd | round | lastRound | firstInvRound | invRound | idle | delay | decoyGroup | decoyFill | dual | sboxLookup
  | invSboxLookup | gfMul => exact .nil

/-- Settles O53: `exec` records what `recorded` lists, read by read, and the reads come in R205's order. -/
theorem exactlyTheGivenModelFaultsAreRecorded : Obligations.ExactlyTheGivenModelFaultsAreRecorded :=
  ⟨fun _ _ _ => exec_faults, fun _ s wf => recorded_pairwise s wf⟩

end Sys2Proof.Machine
end

section
/-!
SUPPORT. What a list of the sequencer's entries computes (R151 to R154, R186): its effect on STATE, DFA_COPY and the count
of mismatches, as a function. Expansion and hardening leave it, so every build's list of a cipher command has the command's
net effect (R185).
-/
namespace Sys2Proof.Machine

/-- What the entries of a cipher command's list work on, the scratch buffers apart: STATE, DFA_COPY and the ghost
`mismatch`. -/
structure Work where
  state : Block
  copy : Block
  mismatch : Nat

namespace Work

/-- Apply `f` to a target; a pass on SCR_STATE is a decoy's (R175). -/
def on (w : Work) (x : Target) (f : Block → Block) : Work :=
  match x with
  | .state => { w with state := f w.state }
  | .dfaCopy => { w with copy := f w.copy }
  | .scrState => w

/-- Apply `f` to a target and a key of the schedule `r`; an invocation with SCR_KEY is a decoy's (R175). -/
def keyed (w : Work) (r : Sched) (x : Target) (k : KeySel) (f : Block → Block → Block) : Work :=
  match k with
  | .round n => w.on x fun b => f b (roundKey r n)
  | .scratch => w

/-- DFA_SNAPSHOT (R181). -/
def snapshot (w : Work) : Work := { w with copy := w.state }

/-- DFA_COMPARE (R182). -/
def compare (w : Work) : Work :=
  if w.state = w.copy then w else { w with state := zeroBlock, mismatch := w.mismatch + 1 }

theorem on_on (w : Work) (x : Target) (f g : Block → Block) : (w.on x f).on x g = w.on x fun b => g (f b) := by
  cases x <;> rfl

theorem on_id (w : Work) (x : Target) : (w.on x fun b => b) = w := by
  cases x <;> rfl

end Work

/-- What one entry of the list of the cipher command `c` does, with the schedule `r` and the IV `iv`. The entries such a
list cannot hold (R79) do nothing here. -/
def meaning (c : Command) (r : Sched) (iv : Block) (w : Work) : Instr → Work
  | .subBytes x => w.on x subBytes
  | .invSubBytes x => w.on x invSubBytes
  | .shiftRows x => w.on x shiftRows
  | .invShiftRows x => w.on x invShiftRows
  | .mixColumns x => w.on x mixColumns
  | .invMixColumns x => w.on x invMixColumns
  | .addRoundKey x k => w.keyed r x k xorBlock
  | .xorIv x => w.on x fun b => xorBlock b iv
  | .round x k => w.keyed r x k roundFn
  | .lastRound x k => w.keyed r x k lastRoundFn
  | .firstInvRound x k => w.keyed r x k firstInvRoundFn
  | .invRound x k => w.keyed r x k invRoundFn
  | .decoyGroup kind x n => w.keyed r x (.round n) (kindFn kind)
  | .dfaSnapshot => w.snapshot
  | .dfaCompare => w.compare
  | .dual => ((w.snapshot.on .state (netEffect c · r iv)).on .dfaCopy (netEffect c · r iv)).compare
  | .idle | .delay _ | .decoyFill | .prngSeed | .keyCopy | .keyWord _ => w
  | .expandKey | .ecbEnc | .ecbDec | .cbcEnc | .cbcDec | .seed | .hostWr _ _ | .hostRd _ => w
  | .sboxLookup _ | .invSboxLookup _ | .gfMul _ _ _ => w

/-- What a list does, entry after entry. -/
def meaningAll (c : Command) (r : Sched) (iv : Block) (w : Work) (l : List Instr) : Work := l.foldl (meaning c r iv) w

section Meaning

variable (c : Command) (r : Sched) (iv : Block) (w : Work)

@[simp] theorem meaningAll_nil : meaningAll c r iv w [] = w := rfl

@[simp] theorem meaningAll_cons (u : Instr) (l : List Instr) :
    meaningAll c r iv w (u :: l) = meaningAll c r iv (meaning c r iv w u) l := rfl

@[simp] theorem meaningAll_append (l m : List Instr) :
    meaningAll c r iv w (l ++ m) = meaningAll c r iv (meaningAll c r iv w l) m := List.foldl_append ..

theorem meaning_roundWord (kind : RoundKind) (x : Target) (k : KeySel) :
    meaning c r iv w (roundWord kind x k) = w.keyed r x k (kindFn kind) := by
  cases kind <;> rfl

/-! ### Expansions -/

/-- The short delays of a padded pass do nothing (R173). -/
@[simp] theorem meaningAll_padPass (b : Config.BuildFlags) (p : Instr) :
    meaningAll c r iv w (padPass b p) = meaning c r iv w p := by
  unfold padPass
  split <;> rfl

theorem meaningAll_flatMap_padPass (b : Config.BuildFlags) (l : List Instr) :
    meaningAll c r iv w (l.flatMap (padPass b)) = meaningAll c r iv w l := by
  induction l generalizing w with
  | nil => rfl
  | cons p l ih => simp [ih]

/-- The passes of a round kind have its net effect (R140 to R143), and a decoy's none. -/
theorem meaningAll_roundPasses (kind : RoundKind) {x : Target} {k : KeySel} (h : keyFits x k = true) :
    meaningAll c r iv w (roundPasses kind x k) = w.keyed r x k (kindFn kind) := by
  cases k with
  | round n =>
    cases kind <;>
      simp [roundPasses, meaning, Work.keyed, Work.on_on, kindFn, roundFn, lastRoundFn, firstInvRoundFn, invRoundFn]
  | scratch =>
    cases x with
    | state | dfaCopy => cases h
    | scrState => cases kind <;> rfl

theorem meaningAll_roundExpansion (b : Config.BuildFlags) (kind : RoundKind) {x : Target} {k : KeySel}
    (h : keyFits x k = true) :
    meaningAll c r iv w (roundExpansion b kind x k) = meaning c r iv w (roundWord kind x k) := by
  rw [roundExpansion, meaningAll_flatMap_padPass, meaningAll_roundPasses c r iv w kind h, meaning_roundWord]

@[simp] theorem meaningAll_replicate_idle (n : Nat) : meaningAll c r iv w (List.replicate n .idle) = w := by
  induction n with
  | zero => rfl
  | succ n ih => exact ih

theorem meaningAll_invocation (kind : RoundKind) (x : Target) (n : Fin 11) (real : Bool) :
    meaningAll c r iv w (invocation kind x n real) =
      if real then w.keyed r x (.round n) (kindFn kind) else w := by
  cases real with
  | true => exact meaning_roundWord ..
  | false => exact meaning_roundWord c r iv w kind .scrState .scratch

/-- A call group is its one real invocation (R177). -/
theorem meaningAll_groupExpansion (kind : RoundKind) (x : Target) (n : Fin 11) (cnt pos : Nat) :
    meaningAll c r iv w (groupExpansion kind x n cnt pos) =
      if pos < cnt then w.keyed r x (.round n) (kindFn kind) else w := by
  induction cnt with
  | zero => rfl
  | succ m ih =>
    have split : groupExpansion kind x n (m + 1) pos =
        groupExpansion kind x n m pos ++ invocation kind x n (m == pos) := by
      simp [groupExpansion, List.range_succ]
    rw [split, meaningAll_append, ih, meaningAll_invocation]
    obtain h | rfl | h := Nat.lt_trichotomy pos m
    · have decoy : (m == pos) = false := beq_false_of_ne (Nat.ne_of_gt h)
      simp only [decoy, Bool.false_eq_true, if_false, if_pos h, if_pos (Nat.lt_succ_of_lt h)]
    · have real : (pos == pos) = true := BEq.rfl
      simp only [real, if_true, if_neg (Nat.lt_irrefl pos), if_pos (Nat.lt_succ_self pos)]
    · have decoy : (m == pos) = false := beq_false_of_ne (Nat.ne_of_lt h)
      have later : ¬pos < m + 1 := Nat.not_lt_of_ge h
      simp only [decoy, Bool.false_eq_true, if_false, if_neg (Nat.not_lt_of_gt h), if_neg later]

/-! ### Bodies and lists of the commands -/

/-- A round, hardened in any way, is the round (R173, R178). -/
theorem meaningAll_hardRound (b : Config.BuildFlags) (kind : RoundKind) (x : Target) (n : Fin 11) :
    meaningAll c r iv w (hardRound b kind x n) = w.keyed r x (.round n) (kindFn kind) := by
  have group : meaningAll c r iv w (groupOf b kind x n) = w.keyed r x (.round n) (kindFn kind) := by
    unfold groupOf
    split
    · rfl
    · exact meaning_roundWord ..
  unfold hardRound
  split
  · simpa [meaning] using group
  · exact group

theorem meaningAll_flatMap_hardRound (b : Config.BuildFlags) (kind : RoundKind) (x : Target) (l : List (Fin 11)) :
    meaningAll c r iv w (l.flatMap (hardRound b kind x)) =
      w.on x fun a => l.foldl (fun a n => kindFn kind a (roundKey r n)) a := by
  induction l generalizing w with
  | nil => exact (w.on_id x).symm
  | cons n l ih => simp [ih, meaningAll_hardRound, Work.keyed, Work.on_on]

theorem meaningAll_encBody (b : Config.BuildFlags) (x : Target) :
    meaningAll c r iv w (encBody b x) = w.on x (enc · r) := by
  simp only [encBody, meaningAll_append, meaningAll_padPass, meaningAll_flatMap_hardRound, meaningAll_hardRound, meaning,
    Work.keyed, Work.on_on]
  rfl

theorem meaningAll_decBody (b : Config.BuildFlags) (x : Target) :
    meaningAll c r iv w (decBody b x) = w.on x (dec · r) := by
  simp only [decBody, meaningAll_append, meaningAll_padPass, meaningAll_flatMap_hardRound, meaningAll_hardRound, meaning,
    Work.keyed, Work.on_on]
  rfl

/-- In every build the body has the command's net effect on its target (R151 to R154). -/
theorem meaningAll_cipherBody (b : Config.BuildFlags) (x : Target) :
    meaningAll c r iv w (cipherBody b c x) = w.on x (netEffect c · r iv) := by
  cases c with
  | ecbEnc => exact meaningAll_encBody ..
  | ecbDec => exact meaningAll_decBody ..
  | cbcEnc => simp [cipherBody, meaningAll_encBody, meaning, Work.on_on, netEffect]
  | cbcDec => simp [cipherBody, meaningAll_decBody, meaning, Work.on_on, netEffect]
  | expandKey | seed => exact (w.on_id x).symm

theorem meaningAll_dualExpansion (b : Config.BuildFlags) :
    meaningAll c r iv w (dualExpansion b c) = meaning c r iv w .dual := by
  simp [dualExpansion, meaningAll_cipherBody, meaning]

/-- The dual computation finds its two results equal (R181, R182). -/
theorem meaning_dual :
    meaning c r iv w .dual =
      { w with state := netEffect c w.state r iv, copy := netEffect c w.state r iv } := by
  simp [meaning, Work.compare, Work.on, Work.snapshot]

/-- R185, on lists: in every build a cipher command's list has the net effect on STATE and counts no mismatch. -/
theorem meaningAll_commandSteps (b : Config.BuildFlags) (hc : c.isCipher = true) :
    (meaningAll c r iv w (commandSteps b c)).state = netEffect c w.state r iv ∧
      (meaningAll c r iv w (commandSteps b c)).mismatch = w.mismatch := by
  have mid : (meaningAll c r iv w (midSteps b c)).state = netEffect c w.state r iv ∧
      (meaningAll c r iv w (midSteps b c)).mismatch = w.mismatch := by
    unfold midSteps
    split
    · simp [meaning_dual]
    · simp [meaningAll_cipherBody, Work.on]
  have steps : commandSteps b c = cipherSteps b c := by
    cases c with
    | ecbEnc | ecbDec | cbcEnc | cbcDec => rfl
    | expandKey | seed => cases hc
  rw [steps, cipherSteps]
  split
  · simpa [meaning] using mid
  · exact mid

end Meaning

end Sys2Proof.Machine
end

section
/-!
SUPPORT. Expansion comes to an end (R76): an expansion holds entries of lower rank only, which gives an induction principle
for the sequencer's lists; and how much fuel `settle` has, beyond what is due, does not matter.
-/
namespace Sys2Proof.Machine

/-! ### Induction over lists and their expansions -/

/-- How deep an entry's expansion can nest: DUAL holds call groups, these hold rounds, these hold delays. -/
def rank : Instr → Nat
  | .dual => 4
  | .decoyGroup _ _ _ => 3
  | .round _ _ | .lastRound _ _ | .firstInvRound _ _ | .invRound _ _ => 2
  | .delay _ => 1
  | _ => 0

@[simp] theorem rank_delay (d : DelayClass) : rank (.delay d) = 1 := rfl

@[simp] theorem rank_decoyGroup (kind : RoundKind) (x : Target) (n : Fin 11) : rank (.decoyGroup kind x n) = 3 := rfl

@[simp] theorem rank_roundWord (kind : RoundKind) (x : Target) (k : KeySel) : rank (roundWord kind x k) = 2 := by
  cases kind <;> rfl

/-- Every entry's rank is below `k`. -/
def RankBelow (k : Nat) (l : List Instr) : Prop := ∀ u ∈ l, rank u < k

namespace RankBelow

variable {k : Nat}

@[simp] theorem nil : RankBelow k [] := List.forall_mem_nil _

@[simp] theorem cons_iff {u : Instr} {l : List Instr} : RankBelow k (u :: l) ↔ rank u < k ∧ RankBelow k l :=
  List.forall_mem_cons

@[simp] theorem append_iff {l m : List Instr} : RankBelow k (l ++ m) ↔ RankBelow k l ∧ RankBelow k m :=
  List.forall_mem_append

theorem flatMap {α : Type} {l : List α} {f : α → List Instr} (h : ∀ a ∈ l, RankBelow k (f a)) :
    RankBelow k (l.flatMap f) := by
  intro u hu
  obtain ⟨a, ha, hua⟩ := List.mem_flatMap.1 hu
  exact h a ha u hua

theorem padPass (b : Config.BuildFlags) {p : Instr} (hp : rank p < k) (hk : 1 < k) : RankBelow k (padPass b p) := by
  unfold Machine.padPass
  split <;> simp [hp, hk]

end RankBelow

theorem rank_of_mem_roundPasses {kind : RoundKind} {x : Target} {k : KeySel} {p : Instr}
    (hp : p ∈ roundPasses kind x k) : rank p = 0 := by
  have all : ∀ p ∈ roundPasses kind x k, rank p = 0 := by cases kind <;> simp [roundPasses, rank]
  exact all p hp

theorem rankBelow_hardRound (b : Config.BuildFlags) (kind : RoundKind) (x : Target) (n : Fin 11) :
    RankBelow 4 (hardRound b kind x n) := by
  have group : RankBelow 4 (groupOf b kind x n) := by
    unfold groupOf
    split <;> simp
  unfold hardRound
  split <;> simp [group]

theorem rankBelow_encBody (b : Config.BuildFlags) (x : Target) : RankBelow 4 (encBody b x) := by
  have pad : RankBelow 4 (padPass b (.addRoundKey x (.round 0))) := .padPass b (Nat.zero_lt_succ _) (by decide)
  simp [encBody, pad, rankBelow_hardRound, RankBelow.flatMap fun n _ => rankBelow_hardRound b .round x n]

theorem rankBelow_decBody (b : Config.BuildFlags) (x : Target) : RankBelow 4 (decBody b x) := by
  have pad : RankBelow 4 (padPass b (.addRoundKey x (.round 0))) := .padPass b (Nat.zero_lt_succ _) (by decide)
  simp [decBody, pad, rankBelow_hardRound, RankBelow.flatMap fun n _ => rankBelow_hardRound b .invRound x n]

theorem rankBelow_cipherBody (b : Config.BuildFlags) (c : Command) (x : Target) : RankBelow 4 (cipherBody b c x) := by
  have pad : RankBelow 4 (padPass b (.xorIv x)) := .padPass b (Nat.zero_lt_succ _) (by decide)
  cases c <;> simp [cipherBody, pad, rankBelow_encBody, rankBelow_decBody]

/-- An expansion holds entries of lower rank only. -/
theorem Expands.rankBelow {b : Config.BuildFlags} {c : Command} {u : Instr} {l : List Instr} (h : Expands b c u l) :
    RankBelow (rank u) l := by
  cases h with
  | round kind x k =>
    rw [rank_roundWord]
    exact .flatMap fun p hp => .padPass b (by simp [rank_of_mem_roundPasses hp]) (by decide)
  | delay d n =>
    intro v hv
    rw [List.eq_of_mem_replicate hv]
    exact Nat.zero_lt_one
  | group kind x n pos hcnt =>
    refine .flatMap fun j _ => ?_
    unfold invocation
    split <;> simp [show rank .decoyFill = 0 from rfl]
  | dual =>
    have ends : rank .dual = 4 ∧ rank .dfaSnapshot = 0 ∧ rank .dfaCompare = 0 := ⟨rfl, rfl, rfl⟩
    simp [dualExpansion, ends, rankBelow_cipherBody]

/-- Induction over the lists of the command `c`: an entry marked by `isMacro` may assume the statement of the list with any
of its expansions in its place. -/
theorem expansion_induction {b : Config.BuildFlags} {c : Command} {P : List Instr → Prop} (nil : P [])
    (step : ∀ u rest, isMacro u = false → P rest → P (u :: rest))
    (expand : ∀ u rest, isMacro u = true → (∀ l, Expands b c u l → P (l ++ rest)) → P (u :: rest)) :
    ∀ l, P l := by
  have entry : ∀ k u, rank u < k → ∀ rest, P rest → P (u :: rest) := by
    intro k
    induction k with
    | zero => exact fun _ hu => absurd hu (Nat.not_lt_zero _)
    | succ k ih =>
      intro u hu rest hrest
      have below : ∀ l, RankBelow k l → P (l ++ rest) := by
        intro l hl
        induction l with
        | nil => exact hrest
        | cons v l ihl =>
          obtain ⟨hv, hl⟩ := RankBelow.cons_iff.1 hl
          exact ih v hv _ (ihl hl)
      cases hm : isMacro u with
      | false => exact step u rest hm hrest
      | true =>
        refine expand u rest hm fun l he => below l fun v hv => ?_
        exact Nat.lt_of_lt_of_le (he.rankBelow v hv) (Nat.le_of_lt_succ hu)
  intro l
  induction l with
  | nil => exact nil
  | cons u l ih => exact entry (rank u + 1) u (Nat.lt_succ_self _) l ih

/-! ### The fuel of `settle` -/

section Head

variable {s : State} {c : Command} {u : Instr} {rest : List Instr}

/-- One replacement at the head of a list of produced entries (R76, R79). -/
theorem expand_head (hu : isMacro u = true) (hl : AllProduced s.config c (u :: rest)) :
    ∃ t l, exec u (s.putSeq (.running c rest)) = .next t ∧ t.seq = .running c (l ++ rest) ∧
      Expands s.config c u l ∧ AllProduced t.config c (l ++ rest) := by
  obtain ⟨hup, hrest⟩ := AllProduced.cons_iff.1 hl
  obtain ⟨r, l, he, hexp, hq, hb⟩ := exec_macro_of_produced (s := s.putSeq (.running c rest)) (c := c) rfl hu hup
  have config : (r.prepend l).config = s.config := by simpa [prepend_running hq] using hb
  refine ⟨_, l, he, by simp [prepend_running hq], hexp, ?_⟩
  rw [config]
  exact AllProduced.append_iff.2 ⟨hexp.allProduced hup, hrest⟩

/-- Any fuel for the replacements due gives the same state. -/
theorem settleFor_eq_of_due {m n : Nat} {s : State} {l : List Instr} (hs : s.seq = .running c l)
    (hl : AllProduced s.config c l) (hm : due l ≤ m) (hn : due l ≤ n) : settleFor m s = settleFor n s := by
  induction m using Nat.strongRecOn generalizing n s l with
  | _ m ih =>
    cases l with
    | nil =>
      obtain ⟨m, rfl⟩ := Nat.exists_eq_add_of_le' (show 1 ≤ m from hm)
      obtain ⟨n, rfl⟩ := Nat.exists_eq_add_of_le' (show 1 ≤ n from hn)
      rw [settleFor_of_nil hs, settleFor_of_nil hs]
    | cons u rest =>
      cases hu : isMacro u with
      | false => rw [settleFor_of_head hs hu, settleFor_of_head hs hu]
      | true =>
        obtain ⟨t, l, he, ht, hexp, hlt⟩ := expand_head hu hl
        have fewer := hexp.due_lt rest
        obtain ⟨m, rfl⟩ := Nat.exists_eq_add_of_lt (Nat.lt_of_lt_of_le fewer hm)
        obtain ⟨n, rfl⟩ := Nat.exists_eq_add_of_lt (Nat.lt_of_lt_of_le fewer hn)
        rw [settleFor_of_macro hs hu he, settleFor_of_macro hs hu he]
        exact ih _ (Nat.lt_succ_self _) ht hlt (Nat.le_add_right ..) (Nat.le_add_right ..)

/-- `settle` replaces the head, then settles what stands there. -/
theorem settle_expand (hs : s.seq = .running c (u :: rest)) (hu : isMacro u = true)
    (hl : AllProduced s.config c (u :: rest)) :
    ∃ t l, exec u (s.putSeq (.running c rest)) = .next t ∧ t.seq = .running c (l ++ rest) ∧
      Expands s.config c u l ∧ AllProduced t.config c (l ++ rest) ∧ settle s = settle t := by
  obtain ⟨t, l, he, ht, hexp, hlt⟩ := expand_head hu hl
  refine ⟨t, l, he, ht, hexp, hlt, ?_⟩
  have fewer := hexp.due_lt rest
  have bound := due_le (u :: rest)
  calc settle s
    _ = settleFor ((u :: rest).length + 3) t := by
      rw [settle, settleFuel, hs]
      exact settleFor_of_macro hs hu he _
    _ = settleFor (settleFuel t) t := by
      refine settleFor_eq_of_due ht hlt (by omega) ?_
      simpa [settleFuel, ht] using Nat.le_succ_of_le (due_le (l ++ rest))

end Head

end Sys2Proof.Machine
end

section
/-!
SUPPORT. The run of a cipher command (43_driver R151 to R154, 44_countermeasures R185): what STATE and `mismatch` will be at
its end is fixed from its acceptance on, and kept by every turn of the sequencer and the host.
-/
namespace Sys2Proof.Machine

/-! ### The result of the running command -/

/-- What the entries of a list find in `s`. -/
def State.work (s : State) : Work := { state := s.state, copy := s.dfaCopy, mismatch := s.mismatch }

/-- What STATE and `mismatch` will be when the running cipher command ends: what its list computes from here. -/
def State.result (s : State) : Block × Nat :=
  match s.seq with
  | .idle => (s.state, s.mismatch)
  | .running c l =>
    ((meaningAll c s.sched s.iv s.work l).state, (meaningAll c s.sched s.iv s.work l).mismatch)

theorem result_of_idle {s : State} (hs : s.seq = .idle) : s.result = (s.state, s.mismatch) := by
  simp [State.result, hs]

/-- The result depends on the list through what it computes. -/
theorem result_eq_of_meaningAll {s t : State} {c : Command} {l m : List Instr} (hs : s.seq = .running c l)
    (ht : t.seq = .running c m)
    (h : meaningAll c t.sched t.iv t.work m = meaningAll c s.sched s.iv s.work l) : t.result = s.result := by
  simp [State.result, hs, ht, h]

/-- R185: the result of an accepted cipher command is its net effect, and no mismatch. -/
theorem result_accept (s : State) {c : Command} (hc : c.isCipher = true) :
    (s.accept c).result = (netEffect c s.state s.sched s.iv, s.mismatch) := by
  obtain ⟨state, mismatch⟩ := meaningAll_commandSteps c s.sched s.iv s.work s.config hc
  exact Prod.ext state mismatch

theorem result_endCommand {s : State} {c : Command} (hs : s.seq = .running c []) :
    (s.endCommand c).result = s.result := by
  rw [result_of_idle (endCommand_seq s c)]
  simp [State.result, hs, State.work]

/-- A draw in a range stays in it (R12). -/
theorem drawIn_le (s : State) {lo hi : Nat} (h : lo ≤ hi) : (s.drawIn lo hi).1 ≤ hi := by
  have small : Config.freeNat s.draws % (hi - lo + 1) < hi - lo + 1 := Nat.mod_lt _ (Nat.succ_pos _)
  simp only [State.drawIn]
  omega

@[simp] theorem redrawPrng_seq (s : State) : s.redrawPrng.seq = s.seq := by simp [State.redrawPrng]

@[simp] theorem redrawPrng_sched (s : State) : s.redrawPrng.sched = s.sched := by simp [State.redrawPrng]

@[simp] theorem redrawPrng_iv (s : State) : s.redrawPrng.iv = s.iv := by simp [State.redrawPrng]

@[simp] theorem redrawPrng_work (s : State) : s.redrawPrng.work = s.work := by simp [State.redrawPrng, State.work]

@[simp] theorem spend_work (s : State) (n : Nat) : (s.spend n).work = s.work := rfl

@[simp] theorem putSeq_work (s : State) (q : Seq) : (s.putSeq q).work = s.work := rfl

@[simp] theorem drawIn_snd (s : State) (lo hi : Nat) : (s.drawIn lo hi).2 = s.spend 1 := rfl

section Replacement

variable {s r t : State} {c : Command} {u : Instr} {rest l : List Instr}

/-- An expansion that computes what its entry does leaves the result. -/
theorem result_prepend (hs : s.seq = .running c (u :: rest)) (hr : r.seq = .running c rest) (sched : r.sched = s.sched)
    (iv : r.iv = s.iv) (work : r.work = s.work)
    (hl : meaningAll c s.sched s.iv s.work l = meaning c s.sched s.iv s.work u) :
    (r.prepend l).result = s.result := by
  rw [prepend_running hr]
  refine result_eq_of_meaningAll hs rfl ?_
  change meaningAll c r.sched r.iv r.work (l ++ rest) = _
  rw [sched, iv, work, meaningAll_append, hl, meaningAll_cons]

theorem result_of_exec_roundWord {kind : RoundKind} {x : Target} {k : KeySel} (fits : keyFits x k = true)
    (hs : s.seq = .running c (roundWord kind x k :: rest))
    (h : exec (roundWord kind x k) (s.putSeq (.running c rest)) = .next t) : t.result = s.result := by
  have expand : exec (roundWord kind x k) (s.putSeq (.running c rest)) =
      .next ((s.putSeq (.running c rest)).expandRound kind x k) := by cases kind <;> rfl
  cases expand.symm.trans h
  exact result_prepend (r := s.putSeq (.running c rest)) hs rfl rfl rfl rfl
    (meaningAll_roundExpansion c _ _ _ _ kind fits)

theorem result_of_exec_delay {d : DelayClass} (hs : s.seq = .running c (.delay d :: rest))
    (h : exec (.delay d) (s.putSeq (.running c rest)) = .next t) : t.result = s.result := by
  cases (expanded_of_busy (s := s.putSeq (.running c rest)) rfl (·.expandDelay d)).symm.trans h
  simp only [State.expandDelay, drawIn_snd]
  exact result_prepend hs (by simp) (by simp) (by simp) (by simp) (meaningAll_replicate_idle ..)

/-- The real invocation's position lies in the group (R175). -/
theorem result_of_exec_decoyGroup {kind : RoundKind} {x : Target} {n : Fin 11}
    (hs : s.seq = .running c (.decoyGroup kind x n :: rest))
    (h : exec (.decoyGroup kind x n) (s.putSeq (.running c rest)) = .next t) : t.result = s.result := by
  cases (expanded_of_busy (s := s.putSeq (.running c rest)) rfl (·.expandGroup kind x n)).symm.trans h
  simp only [State.expandGroup, drawIn_snd]
  refine result_prepend hs (by simp) (by simp) (by simp) (by simp) ((meaningAll_groupExpansion ..).trans (if_pos ?_))
  exact Nat.lt_of_le_of_lt (drawIn_le _ (Nat.zero_le _)) (Nat.sub_lt (Nat.le_add_right 1 _) Nat.zero_lt_one)

theorem result_of_exec_dual (hc : c.isCipher = true) (hs : s.seq = .running c (.dual :: rest))
    (h : exec .dual (s.putSeq (.running c rest)) = .next t) : t.result = s.result := by
  have expand : exec .dual (s.putSeq (.running c rest)) =
      .next ((s.putSeq (.running c rest)).prepend (dualExpansion s.config c)) := by simp [exec, execDual, hc]
  cases expand.symm.trans h
  exact result_prepend hs rfl rfl rfl rfl (meaningAll_dualExpansion ..)

/-- A replacement leaves the result. -/
theorem result_of_exec_macro (hu : isMacro u = true) (hp : produced s.config c u = true)
    (hs : s.seq = .running c (u :: rest)) (h : exec u (s.putSeq (.running c rest)) = .next t) :
    t.result = s.result := by
  have fits : ∀ (kind : RoundKind) (x : Target) (k : KeySel), produced s.config c (roundWord kind x k) = true →
      keyFits x k = true := by
    intro kind x k hk
    simp only [produced_roundWord, Bool.and_eq_true] at hk
    exact hk.1.2
  cases u with
  | round x k => exact result_of_exec_roundWord (kind := .round) (fits .round x k hp) hs h
  | lastRound x k => exact result_of_exec_roundWord (kind := .lastRound) (fits .lastRound x k hp) hs h
  | firstInvRound x k => exact result_of_exec_roundWord (kind := .firstInvRound) (fits .firstInvRound x k hp) hs h
  | invRound x k => exact result_of_exec_roundWord (kind := .invRound) (fits .invRound x k hp) hs h
  | delay d => exact result_of_exec_delay hs h
  | decoyGroup kind x n => exact result_of_exec_decoyGroup hs h
  | dual => exact result_of_exec_dual (Bool.and_eq_true_iff.1 hp).1 hs h
  | _ => cases hu

end Replacement

/-! ### What an entry of the list does -/

/-- `t` differs from `s` in STATE, `prng`, the hidden buffers and the counts of draws and mismatches at most. -/
def OnlyWork (s t : State) : Prop :=
  ∃ b p x y z d m, t = { s with
    state := b, prng := p, dfaCopy := x, scrState := y, scrKey := z, draws := d, mismatch := m }

theorem onlyWork_refl (s : State) : OnlyWork s s := ⟨_, _, _, _, _, _, _, rfl⟩

section Entry

variable {s : State} (written : s.stateWritten)

include written

theorem onlyWork_writeTarget (x : Target) (b : Block) : OnlyWork s (s.writeTarget x b) := by
  have bits : { s.written with state := Vector.replicate 16 true } = s.written := by rw [← written]
  cases x with
  | state =>
    refine ⟨b, s.prng, s.dfaCopy, s.scrState, s.scrKey, s.draws, s.mismatch, ?_⟩
    simp only [State.writeTarget, State.putState, bits]
  | dfaCopy | scrState => exact ⟨_, _, _, _, _, _, _, rfl⟩

omit written in
theorem work_writeTarget (x : Target) (f : Block → Block) :
    (s.writeTarget x (f (s.bytesOf x))).work = s.work.on x f := by
  cases x <;> rfl

theorem transform_work (x : Target) (f : Block → Block) :
    OnlyWork s (s.transform x f) ∧ (s.transform x f).work = s.work.on x f := by
  rw [transform_of_ready fun _ => written]
  exact ⟨onlyWork_writeTarget written .., work_writeTarget ..⟩

/-- A key addition reads its key exactly, and a decoy's (R175) works on SCR_STATE. -/
theorem addRoundKey_work (sched : s.schedWritten) {x : Target} {k : KeySel} (fits : keyFits x k = true) :
    OnlyWork s (s.combine x fun t => t.readKey k) ∧
      (s.combine x fun t => t.readKey k).work = s.work.keyed s.sched x k xorBlock := by
  have ready : s.keyReady k := by
    cases k with
    | round n => exact roundKeyWritten_of_schedWritten sched n
    | scratch => trivial
  rw [combine_of_ready (fun _ => written) (readKey_of_ready ready)]
  refine ⟨onlyWork_writeTarget written .., ?_⟩
  cases k with
  | round n => exact work_writeTarget x fun b => xorBlock b (roundKey s.sched n)
  | scratch =>
    cases x with
    | state | dfaCopy => cases fits
    | scrState => exact work_writeTarget .scrState fun b => xorBlock b s.scrKey

theorem xorIv_work (iv : s.ivWritten) (x : Target) :
    OnlyWork s (s.combine x State.readIv) ∧
      (s.combine x State.readIv).work = s.work.on x fun b => xorBlock b s.iv := by
  rw [combine_of_ready (fun _ => written) (readIv_of_written iv)]
  exact ⟨onlyWork_writeTarget written .., work_writeTarget x fun b => xorBlock b s.iv⟩

theorem exec_dfaSnapshot_work :
    ∃ t, exec .dfaSnapshot s = .next t ∧ OnlyWork s t ∧ t.work = s.work.snapshot := by
  refine ⟨s.putDfaCopy s.state, ?_, onlyWork_writeTarget written .dfaCopy _, rfl⟩
  simp [exec, execDfaSnapshot, readState_of_written written]

theorem exec_dfaCompare_work :
    ∃ t, exec .dfaCompare s = .next t ∧ OnlyWork s t ∧ t.work = s.work.compare := by
  by_cases same : s.state = s.dfaCopy
  · refine ⟨s, ?_, onlyWork_refl s, ?_⟩
    · simp [exec, execDfaCompare, readState_of_written written, same]
    · simp [State.work, Work.compare, same]
  · refine ⟨(s.putState zeroBlock).countMismatch, ?_, ?_, ?_⟩
    · simp [exec, execDfaCompare, readState_of_written written, same]
    · obtain ⟨b, p, x, y, z, d, m, h⟩ := onlyWork_writeTarget written .state zeroBlock
      exact ⟨b, p, x, y, z, d, m + 1, congrArg State.countMismatch h⟩
    · simp [State.work, Work.compare, same]

end Entry

/-- Every entry of a cipher command's list that is not expanded does what `meaning` says, and changes nothing else. -/
theorem exec_entry {s : State} {c : Command} {u : Instr} (hc : c.isCipher = true) (hu : isMacro u = false)
    (hp : produced s.config c u = true) (inputs : s.inputsWritten c) :
    ∃ t, exec u s = .next t ∧ OnlyWork s t ∧ t.work = meaning c s.sched s.iv s.work u := by
  obtain ⟨state, sched, iv⟩ := inputs
  cases u with
  | subBytes x | invSubBytes x | shiftRows x | invShiftRows x | mixColumns x | invMixColumns x =>
    exact ⟨_, rfl, transform_work state x _⟩
  | addRoundKey x k =>
    exact ⟨_, rfl, addRoundKey_work state sched (Bool.and_eq_true_iff.1 hp).2⟩
  | xorIv x =>
    have uses : usesIv c = true := by
      simp only [produced, Bool.and_eq_true] at hp
      exact hp.1.1
    exact ⟨_, rfl, xorIv_work state (iv uses) x⟩
  | idle => exact ⟨s, rfl, onlyWork_refl s, rfl⟩
  | decoyFill => exact ⟨_, decoyFillFillsTheScratchBuffers s, ⟨_, _, _, _, _, _, _, rfl⟩, rfl⟩
  | dfaSnapshot => exact exec_dfaSnapshot_work state
  | dfaCompare => exact exec_dfaCompare_work state
  | keyCopy => exact absurd (.inl rfl) (not_writesSched_of_produced hc hp)
  | keyWord j => exact absurd (.inr ⟨j, rfl⟩) (not_writesSched_of_produced hc hp)
  | prngSeed =>
    obtain rfl : c = .seed := eq_of_beq hp
    cases hc
  | round | lastRound | firstInvRound | invRound | delay | decoyGroup | dual => cases hu
  | _ => cases hp

end Sys2Proof.Machine
end

section
/-!
SUPPORT. The turns taken while a cipher command runs (R76): the sequencer's and the host's, in any order, carry the
surroundings and the result to the end of the command (R185).
-/
namespace Sys2Proof.Machine

/-! ### What the turns carry -/

/-- From `s` to a later state `t` of the same cipher command: besides STATE, `prng`, the hidden buffers, the sequencer and the
counts of draws and mismatches, only the host's side, `past` and the host's model faults move; and the result stays. -/
structure Carries (s t : State) : Prop where
  frame : t = { s with
    state := t.state, prng := t.prng, dfaCopy := t.dfaCopy, scrState := t.scrState, scrKey := t.scrKey, seq := t.seq,
    draws := t.draws, mismatch := t.mismatch, past := t.past, turns := t.turns, host := t.host,
    readData := t.readData, got := t.got, faults := t.faults }
  result : t.result = s.result
  turns : t.turns <:+ s.turns
  faults : ∃ l, t.faults = s.faults ++ l ∧ ∀ f ∈ l, ∃ a v, f = .hostWriteWhileBusy a v
  quiet : .host ∉ s.turns → t.host = s.host ∧ t.readData = s.readData ∧ t.got = s.got ∧ t.faults = s.faults

namespace Carries

variable {s t u : State}

theorem trans (h : Carries s t) (k : Carries t u) : Carries s u where
  frame := by
    have frame := k.frame
    rw [h.frame] at frame
    exact frame
  result := k.result.trans h.result
  turns := k.turns.trans h.turns
  faults := by
    obtain ⟨l, hl, host⟩ := h.faults
    obtain ⟨m, hm, host'⟩ := k.faults
    refine ⟨l ++ m, by rw [hm, hl, List.append_assoc], fun f hf => ?_⟩
    exact (List.mem_append.1 hf).elim (host f) (host' f)
  quiet := by
    intro silent
    obtain ⟨lines, byte, bytes, faults⟩ := h.quiet silent
    obtain ⟨lines', byte', bytes', faults'⟩ := k.quiet fun hm => silent (h.turns.subset hm)
    exact ⟨lines'.trans lines, byte'.trans byte, bytes'.trans bytes, faults'.trans faults⟩

theorem inputsWritten (h : Carries s t) {c : Command} (inputs : s.inputsWritten c) : t.inputsWritten c := by
  rw [h.frame]
  exact inputs

theorem config (h : Carries s t) : t.config = s.config := by rw [h.frame]

theorem onlyHostAndCore (h : Carries s t) (turns : s.onlyHostAndCore) : t.onlyHostAndCore :=
  fun a ha => turns a (h.turns.subset ha)

/-- A replacement in the list, or the command's end. -/
theorem of_onlyHidden (h : OnlyHidden s t) (result : t.result = s.result) : Carries s t := by
  obtain ⟨_, _, _, _, _, _, rfl⟩ := h
  exact ⟨rfl, result, List.suffix_refl _, ⟨[], (List.append_nil _).symm, nofun⟩, fun _ => ⟨rfl, rfl, rfl, rfl⟩⟩

end Carries

/-! ### The sequencer's turn -/

section Turns

variable {s : State} {c : Command} {u : Instr} {rest : List Instr}

theorem step_of_core (hs : s.seq = .running c (u :: rest)) (turn : s.nextTurn = .core) :
    step s = mapNext settle (exec u ((s.dropTurn.putSeq (.running c rest)).note (.core u))) := by
  simp [step, turn, takeTurn, coreTurn, hs]

/-- The sequencer performs the head of the list: what remains has the same result. -/
theorem carries_of_core (hc : c.isCipher = true) (hs : s.seq = .running c (u :: rest)) (hu : isMacro u = false)
    (hp : produced s.config c u = true) (inputs : s.inputsWritten c) (turn : s.nextTurn = .core) :
    ∃ r, step s = .next (settle r) ∧ r.seq = .running c rest ∧ Carries s r := by
  obtain ⟨r, he, only, work⟩ :=
    exec_entry (s := (s.dropTurn.putSeq (.running c rest)).note (.core u)) hc hu hp inputs
  refine ⟨r, by rw [step_of_core hs turn, he, mapNext], ?_⟩
  obtain ⟨_, _, _, _, _, _, _, rfl⟩ := only
  refine ⟨rfl, rfl, ?_, List.tail_suffix s.turns, ⟨[], (List.append_nil _).symm, nofun⟩, fun _ => ⟨rfl, rfl, rfl, rfl⟩⟩
  exact result_eq_of_meaningAll hs rfl (congrArg (meaningAll c s.sched s.iv · rest) work)

/-! ### The host's turn -/

/-- What the host can do while BUSY is 1: read, poll and have its writes recorded as model faults (R57). -/
def HostOnly (s t : State) : Prop :=
  ∃ lines v bytes d run l, t = { s with
    host := lines, readData := v, got := bytes, draws := d, past := run, faults := s.faults ++ l } ∧
    ∀ f ∈ l, ∃ a v, f = Fault.hostWriteWhileBusy a v

theorem hostOnly_of_outside {s : State} (lines : List HostLine) (bytes : List Byte) (run : List Config.RunEvent) :
    HostOnly s { s with host := lines, got := bytes, past := run } :=
  ⟨_, _, _, _, _, [], by rw [List.append_nil], nofun⟩

theorem HostOnly.trans {s t r : State} (h : HostOnly s t) (k : HostOnly t r) : HostOnly s r := by
  obtain ⟨_, _, _, _, _, l, rfl, host⟩ := h
  obtain ⟨_, _, _, _, _, m, rfl, host'⟩ := k
  refine ⟨_, _, _, _, _, l ++ m, by rw [← List.append_assoc], fun f hf => ?_⟩
  exact (List.mem_append.1 hf).elim (host f) (host' f)

theorem exec_hostRd_hostOnly (s : State) (a : Byte) : ∃ t, exec (.hostRd a) s = .next t ∧ HostOnly s t := by
  refine ⟨_, rfl, ?_⟩
  obtain h | h := hostRead_state s a <;> rw [h] <;>
    exact ⟨_, _, _, _, _, [], by rw [List.append_nil]; rfl, nofun⟩

theorem exec_hostWr_hostOnly {s : State} (busy : s.busy = true) (a d : Byte) :
    ∃ t, exec (.hostWr a d) s = .next t ∧ HostOnly s t := by
  refine ⟨_, rfl, ?_⟩
  rw [hostWrite_of_busy busy]
  exact ⟨_, _, _, _, _, [.hostWriteWhileBusy a d], rfl, by simp⟩

theorem exec_decodeHost_hostOnly {s : State} (busy : s.busy = true) (w : BitVec 17) :
    ∃ t, exec (decodeHost w) s = .next t ∧ HostOnly s t := by
  unfold decodeHost
  split
  · exact exec_hostWr_hostOnly busy _ _
  · exact exec_hostRd_hostOnly s _

theorem bindRead_hostOnly (s : State) (i : Instr) : HostOnly s (s.bindRead i) := by
  cases i <;> exact hostOnly_of_outside ..

theorem afterPoll_hostOnly (s : State) (lines : List HostLine) : HostOnly s (s.afterPoll lines) := by
  unfold State.afterPoll
  split <;> exact hostOnly_of_outside ..

theorem hostTurn_hostOnly {s : State} (busy : s.busy = true) : ∃ t, hostTurn s = .next t ∧ HostOnly s t := by
  cases hh : s.host with
  | nil => exact ⟨s, by simp [hostTurn, hh], hostOnly_of_outside ..⟩
  | cons line lines =>
    cases line with
    | txn w =>
      obtain ⟨r, he, hr⟩ := exec_decodeHost_hostOnly (s := { s with host := lines }.note (.host w)) busy w
      exact ⟨_, by simp only [hostTurn, hh, he, mapNext],
        ((hostOnly_of_outside ..).trans hr).trans (bindRead_hostOnly r (decodeHost w))⟩
    | wait =>
      obtain ⟨r, he, hr⟩ := exec_hostRd_hostOnly (s.note .poll) statusAddress
      exact ⟨_, by simp only [hostTurn, hh, he, mapNext],
        ((hostOnly_of_outside ..).trans hr).trans (afterPoll_hostOnly r lines)⟩

/-- A turn of the host leaves the list and the result. -/
theorem carries_of_host (hs : s.seq = .running c (u :: rest)) {coming : List Turn} (turns : s.turns = .host :: coming) :
    ∃ r, step s = .next (settle r) ∧ r.seq = s.seq ∧ r.turns = coming ∧ Carries s r := by
  obtain ⟨r, he, only⟩ := hostTurn_hostOnly (s := s.dropTurn) (busy_of_running hs)
  have turn : s.nextTurn = .host := by simp [State.nextTurn, turns]
  refine ⟨r, by rw [step, turn, takeTurn, he, mapNext], ?_⟩
  obtain ⟨_, _, _, _, _, l, rfl, host⟩ := only
  refine ⟨rfl, congrArg List.tail turns, rfl, ?_, List.tail_suffix s.turns, ⟨l, rfl, host⟩, ?_⟩
  · exact result_eq_of_meaningAll hs hs rfl
  · simp [turns]

end Turns

/-! ### The run -/

/-- Steps lead from `s` to `t`, BUSY is 1 before each of them and 0 at `t`. -/
inductive Finishes : State → State → Prop
  | done {s : State} (idle : s.seq = .idle) : Finishes s s
  | step {s r t : State} (busy : s.busy = true) (h : step s = .next r) (k : Finishes r t) : Finishes s t

theorem Finishes.idle {s t : State} (h : Finishes s t) : t.seq = .idle := by
  induction h with
  | done idle => exact idle
  | step _ _ _ ih => exact ih

theorem run_succ_of_step {s t : State} (h : step s = .next t) (n : Nat) :
    Host.Core.run core (n + 1) s = Host.Core.run core n t := by
  have h' : core.step s = .next t := h
  simp [Host.Core.run, h']

theorem Finishes.run {s t : State} (h : Finishes s t) :
    ∃ n, Host.Core.run core n s = .next t ∧
      ∀ m, m < n → ∃ u, Host.Core.run core m s = .next u ∧ u.statusByte = 0x01#8 := by
  induction h with
  | done => exact ⟨0, rfl, nofun⟩
  | @step s r t busy h _ ih =>
    obtain ⟨n, hn, before⟩ := ih
    refine ⟨n + 1, (run_succ_of_step h n).trans hn, fun m hm => ?_⟩
    cases m with
    | zero => exact ⟨s, rfl, by simp [State.statusByte, busy]⟩
    | succ m =>
      rw [run_succ_of_step h]
      exact before m (Nat.lt_of_succ_lt_succ hm)

/-- The cipher command `c` is under way in `s`, in the build `b` and with the list `l`, whose head is still to be
settled. -/
structure Underway (b : Config.BuildFlags) (c : Command) (l : List Instr) (s : State) : Prop where
  config : s.config = b
  seq : s.seq = .running c l
  entries : AllProduced b c l
  turns : s.onlyHostAndCore
  inputs : s.inputsWritten c

theorem Underway.of_carries {b : Config.BuildFlags} {c : Command} {l m : List Instr} {s t : State}
    (h : Underway b c l s) (carried : Carries s t) (seq : t.seq = .running c m) (entries : AllProduced b c m) :
    Underway b c m t :=
  ⟨carried.config.trans h.config, seq, entries, carried.onlyHostAndCore h.turns, carried.inputsWritten h.inputs⟩

/-- Settled, `s` runs to the end of its command, and its result is carried there. -/
def ConcludesFrom (s : State) : Prop := ∃ t, Finishes (settle s) t ∧ Carries s t

/-- This holds of every state in which `c` is under way with the list `l`. -/
def Concludes (b : Config.BuildFlags) (c : Command) (l : List Instr) : Prop := ∀ s, Underway b c l s → ConcludesFrom s

section Concludes

variable {b : Config.BuildFlags} {c : Command} {u : Instr} {rest : List Instr}

theorem ConcludesFrom.of_step {s r : State} (hs : s.seq = .running c (u :: rest)) (hu : isMacro u = false)
    (hstep : step s = .next (settle r)) (carried : Carries s r) (h : ConcludesFrom r) : ConcludesFrom s := by
  obtain ⟨t, finishes, carries⟩ := h
  refine ⟨t, ?_, carried.trans carries⟩
  rw [settle_of_head hs hu]
  exact .step (busy_of_running hs) hstep finishes

theorem concludes_nil : Concludes b c [] := by
  intro s h
  rw [ConcludesFrom, settle_of_nil h.seq]
  exact ⟨_, .done (endCommand_seq s c), .of_onlyHidden (.endCommand s c) (result_endCommand h.seq)⟩

/-- The host's turns before the sequencer's next one stand on the list of turns, so they are finitely many (R76). -/
theorem concludes_cons (hc : c.isCipher = true) (hu : isMacro u = false) (ih : Concludes b c rest) :
    Concludes b c (u :: rest) := by
  have performed : ∀ s, Underway b c (u :: rest) s → s.nextTurn = .core → ConcludesFrom s := by
    intro s h turn
    obtain ⟨hup, hrest⟩ := AllProduced.cons_iff.1 h.entries
    obtain ⟨r, hstep, hr, carried⟩ := carries_of_core hc h.seq hu (h.config ▸ hup) h.inputs turn
    exact .of_step h.seq hu hstep carried (ih r (h.of_carries carried hr hrest))
  suffices ∀ (coming : List Turn) (s : State), s.turns = coming → Underway b c (u :: rest) s → ConcludesFrom s from
    fun s h => this s.turns s rfl h
  intro coming
  induction coming with
  | nil => exact fun s turns h => performed s h (by simp [State.nextTurn, turns, busy_of_running h.seq])
  | cons a coming ihTurns =>
    intro s turns h
    obtain rfl | rfl := h.turns a (by simp [turns])
    · obtain ⟨r, hstep, hseq, hturns, carried⟩ := carries_of_host h.seq turns
      have underway := h.of_carries carried (hseq.trans h.seq) h.entries
      exact .of_step h.seq hu hstep carried (ihTurns r hturns underway)
    · exact performed s h (by simp [State.nextTurn, turns])

theorem concludes_expand (hu : isMacro u = true) (ih : ∀ l, Expands b c u l → Concludes b c (l ++ rest)) :
    Concludes b c (u :: rest) := by
  intro s h
  obtain ⟨r, l, he, hr, hexp, entries, hsettle⟩ := settle_expand h.seq hu (h.config ▸ h.entries)
  have carried : Carries s r := by
    refine .of_onlyHidden (.trans (.putSeq s _) (exec_macro hu he)) (result_of_exec_macro hu ?_ h.seq he)
    rw [h.config]
    exact (AllProduced.cons_iff.1 h.entries).1
  rw [carried.config, h.config] at entries
  rw [h.config] at hexp
  obtain ⟨t, finishes, carries⟩ := ih l hexp r (h.of_carries carried hr entries)
  exact ⟨t, hsettle ▸ finishes, carried.trans carries⟩

/-- In every build a cipher command ends with the result it had at its acceptance (R76, R185). -/
theorem concludes (hc : c.isCipher = true) (l : List Instr) : Concludes b c l :=
  expansion_induction concludes_nil (fun _ _ hu => concludes_cons hc hu) (fun _ _ hu => concludes_expand hu) l

end Concludes

/-- Settles O39: the accepted list's result is the net effect, with no mismatch, and the run carries it to Idle. -/
theorem cipherCommandsAreTransparent : Obligations.CipherCommandsAreTransparent := by
  unfold Obligations.CipherCommandsAreTransparent
  intro s c hc present idle turns inputs
  have underway : Underway s.config c (commandSteps s.config c) (s.accept c) :=
    ⟨rfl, rfl, allProduced_commandSteps s.config c, turns, inputs⟩
  obtain ⟨t, finishes, carries⟩ := concludes hc _ _ underway
  obtain ⟨n, run, busy⟩ := finishes.run
  have ended : t.seq = s.seq := finishes.idle.trans idle.symm
  have result := carries.result
  rw [result_of_idle finishes.idle, result_accept s hc, Prod.mk.injEq] at result
  obtain ⟨state, mismatch⟩ := result
  refine ⟨n, t, run, busy, ?_, carries.faults, carries.quiet⟩
  have frame := carries.frame
  rw [state, mismatch, ended] at frame
  exact frame

end Sys2Proof.Machine
end

section
/-!
SUPPORT. Words and instructions (30_encoding R71 to R81): what each field of a word decodes to and the one code it has,
then, for each kind of word, that the decoder and the encoder undo each other.
-/
namespace Sys2Proof

/-! ### Words and their fields -/

/-- Every word is a high field followed by a low one. -/
theorem exists_eq_append {m n : Nat} (u : BitVec (m + n)) : ∃ (a : BitVec m) (b : BitVec n), u = a ++ b := by
  refine ⟨u.extractLsb' n m, u.extractLsb' 0 n, ?_⟩
  rw [BitVec.extractLsb'_append_extractLsb'_eq_extractLsb' (Nat.zero_add n).symm, BitVec.extractLsb'_eq_self]

/-- The field above the low one. -/
theorem extractLsb'_middle {m n p : Nat} (a : BitVec m) (b : BitVec n) (c : BitVec p) :
    (a ++ b ++ c).extractLsb' p n = b := by
  rw [BitVec.extractLsb'_append_eq_of_le (Nat.le_refl p), Nat.sub_self, BitVec.extractLsb'_append_eq_right]

/-- The field above the two low ones. -/
theorem extractLsb'_third {m n p q : Nat} (a : BitVec m) (b : BitVec n) (c : BitVec p) (d : BitVec q) :
    (a ++ b ++ c ++ d).extractLsb' (q + p) n = b := by
  rw [BitVec.extractLsb'_append_eq_of_le (Nat.le_add_right q p), Nat.add_sub_cancel_left, extractLsb'_middle]

/-- R77: `op[15:8] x[7:6] k[5:0]`. -/
theorem stepWord_fields (op : BitVec 8) (x : BitVec 2) (k : BitVec 6) :
    BitVec.extractLsb' (n := 16) 8 8 (op ++ x ++ k) = op ∧ BitVec.extractLsb' (n := 16) 6 2 (op ++ x ++ k) = x ∧
      BitVec.extractLsb' (n := 16) 0 6 (op ++ x ++ k) = k := by
  refine ⟨?_, extractLsb'_middle op x k, BitVec.extractLsb'_append_eq_right⟩
  rw [BitVec.extractLsb'_append_eq_of_le (by decide)]
  exact BitVec.extractLsb'_append_eq_left

/-- R78: `op[23:16] x[15:14] n[13:8] op2[7:0]`. -/
theorem groupWord_fields (op : BitVec 8) (x : BitVec 2) (n : BitVec 6) (op2 : BitVec 8) :
    BitVec.extractLsb' (n := 24) 16 8 (op ++ x ++ n ++ op2) = op ∧
      BitVec.extractLsb' (n := 24) 14 2 (op ++ x ++ n ++ op2) = x ∧
      BitVec.extractLsb' (n := 24) 8 6 (op ++ x ++ n ++ op2) = n ∧
      BitVec.extractLsb' (n := 24) 0 8 (op ++ x ++ n ++ op2) = op2 := by
  refine ⟨?_, extractLsb'_third op x n op2, extractLsb'_middle (op ++ x) n op2, BitVec.extractLsb'_append_eq_right⟩
  rw [BitVec.extractLsb'_append_eq_of_le (by decide)]
  exact (stepWord_fields op x n).1

/-- A function's word: its operand bytes above its id (log 11). -/
theorem funcWord_fields (c b a id : BitVec 8) :
    BitVec.extractLsb' (n := 32) 24 8 (c ++ b ++ a ++ id) = c ∧
      BitVec.extractLsb' (n := 32) 16 8 (c ++ b ++ a ++ id) = b ∧
      BitVec.extractLsb' (n := 32) 8 8 (c ++ b ++ a ++ id) = a ∧
      BitVec.extractLsb' (n := 32) 0 8 (c ++ b ++ a ++ id) = id ∧
      BitVec.extractLsb' (n := 32) 16 16 (c ++ b ++ a ++ id) = c ++ b := by
  refine ⟨?_, extractLsb'_third c b a id, extractLsb'_middle (c ++ b) a id, BitVec.extractLsb'_append_eq_right, ?_⟩
  all_goals
    rw [BitVec.extractLsb'_append_eq_of_le (by decide), BitVec.extractLsb'_append_eq_of_le (by decide)]
  · rw [BitVec.extractLsb'_append_eq_of_le (by decide)]
    exact BitVec.extractLsb'_eq_self
  · exact BitVec.extractLsb'_eq_self

/-- R74: bit 16 `w`, bits 15:8 `a`, bits 7:0 `d`. -/
theorem hostWord_fields (w : BitVec 1) (a d : BitVec 8) :
    BitVec.getLsbD (w := 17) (w ++ a ++ d) 16 = w.getLsbD 0 ∧ BitVec.extractLsb' (n := 17) 8 8 (w ++ a ++ d) = a ∧
      BitVec.extractLsb' (n := 17) 0 8 (w ++ a ++ d) = d := by
  refine ⟨?_, extractLsb'_middle w a d, BitVec.extractLsb'_append_eq_right⟩
  change BitVec.getLsbD (w := 1 + 8 + 8) (w ++ a ++ d) 16 = _
  simp only [BitVec.getLsbD_append]
  simp

/-! ### Operands and their codes -/

theorem eq_ofNat_of_toNat_eq {w : Nat} {v : BitVec w} {n : Nat} (h : v.toNat = n) : v = BitVec.ofNat w n := by
  rw [← h, BitVec.ofNat_toNat, BitVec.setWidth_eq]

theorem decodeTarget_eq_ok_iff {x : BitVec 2} {t : Target} : decodeTarget x = .ok t ↔ x = t.code := by
  constructor
  · intro h
    unfold decodeTarget at h
    split at h
    case h_4 => cases h
    all_goals
      rename_i code
      cases h
      exact BitVec.eq_of_toNat_eq code
  · rintro rfl
    cases t <;> rfl

/-- A round key's index is its own field `k`. -/
theorem decodeKey_round (n : Fin 11) : decodeKey (KeySel.round n).code = .ok (.round n) := by
  have value : (KeySel.round n).code.toNat = n.val := Nat.mod_eq_of_lt (Nat.lt_trans n.isLt (by decide))
  unfold decodeKey
  rw [dif_pos (value ▸ n.isLt)]
  simp only [value]

theorem decodeKey_eq_ok_iff {k : BitVec 6} {s : KeySel} : decodeKey k = .ok s ↔ k = s.code := by
  constructor
  · intro h
    unfold decodeKey at h
    split at h
    · cases h
      exact eq_ofNat_of_toNat_eq rfl
    · split at h
      next scratch =>
        cases h
        exact scratch
      · cases h
  · rintro rfl
    cases s with
    | round n => exact decodeKey_round n
    | scratch => rfl

theorem decodeCommand_eq_some_iff {v : Byte} {c : Command} : decodeCommand v = some c ↔ v = c.byte := by
  cases c <;> revert v <;> decide

theorem decodeKind_eq_ok_iff {v : Byte} {kind : RoundKind} : decodeKind v = .ok kind ↔ v = kind.op := by
  constructor
  · intro h
    unfold decodeKind at h
    split at h
    case h_5 => cases h
    all_goals
      rename_i id
      cases h
      exact BitVec.eq_of_toNat_eq id
  · rintro rfl
    cases kind <;> rfl

/-! ### The rows of a micro-step word (R77) -/

section Rows

variable {op : Byte} {x : BitVec 2} {k : BitVec 6} {i : Instr}

/-- A row with no operand has one word. -/
theorem encode_of_bare {j : Instr} (h : bare x k j = .ok i) (wf : j.wf = true) (word : encode j = stepWord op 0 0) :
    i.wf = true ∧ encode i = stepWord op x k := by
  unfold bare at h
  split at h
  next zero =>
    obtain ⟨rfl, rfl⟩ := zero
    cases h
    exact ⟨wf, word⟩
  · cases h

/-- A row with a target has one word for each. -/
theorem encode_of_onTarget {f : Target → Instr} (h : onTarget x k f = .ok i)
    (row : ∀ t : Target, x = t.code → (f t).wf = true ∧ encode (f t) = stepWord op t.code 0) :
    i.wf = true ∧ encode i = stepWord op x k := by
  unfold onTarget at h
  split at h
  next zero =>
    obtain rfl := zero
    cases ht : decodeTarget x with
    | ok t =>
      rw [ht] at h
      obtain rfl : f t = i := Except.ok.inj h
      obtain rfl := decodeTarget_eq_ok_iff.1 ht
      exact row t rfl
    | error e =>
      rw [ht] at h
      cases h
  · cases h

/-- A row with a target and a key has one word for each pair that its limit admits. -/
theorem encode_of_onTargetKey {lim : KeySel → Bool} {f : Target → KeySel → Instr}
    (h : onTargetKey x k lim f = .ok i)
    (row : ∀ (t : Target) (s : KeySel), lim s = true →
      (f t s).wf = true ∧ encode (f t s) = stepWord op t.code s.code) :
    i.wf = true ∧ encode i = stepWord op x k := by
  unfold onTargetKey at h
  split at h
  next t s ht hs =>
    split at h
    next admitted =>
      cases h
      obtain rfl := decodeTarget_eq_ok_iff.1 ht
      obtain rfl := decodeKey_eq_ok_iff.1 hs
      exact row t s admitted
    · cases h
  · cases h
  · cases h

theorem encode_of_decodeWordIndex (h : decodeWordIndex k = .ok i) : i.wf = true ∧ encode i = stepWord 0x51 0 k := by
  unfold decodeWordIndex at h
  split at h
  next range =>
    cases h
    exact ⟨decide_eq_true range.1, by simp [encode]⟩
  · cases h

theorem encode_of_decodeClass (h : decodeClass k = .ok i) : i.wf = true ∧ encode i = stepWord 0x81 0 k := by
  unfold decodeClass at h
  split at h
  case h_4 => cases h
  all_goals
    rename_i code
    cases h
    exact ⟨rfl, congrArg (stepWord 0x81 0) (BitVec.eq_of_toNat_eq code.symm)⟩

theorem decodeWordIndex_ofNat {j : Fin 44} (h : 4 ≤ j.val) :
    decodeWordIndex (BitVec.ofNat 6 j.val) = .ok (.keyWord j) := by
  have value : (BitVec.ofNat 6 j.val).toNat = j.val := Nat.mod_eq_of_lt (Nat.lt_trans j.isLt (by decide))
  unfold decodeWordIndex
  rw [dif_pos (by rw [value]; exact ⟨h, j.isLt⟩)]
  simp only [value]

theorem onTarget_code (t : Target) (f : Target → Instr) : onTarget t.code 0 f = .ok (f t) := by
  cases t <;> rfl

theorem onTargetKey_code (t : Target) {s : KeySel} {lim : KeySel → Bool} (f : Target → KeySel → Instr)
    (h : lim s = true) : onTargetKey t.code s.code lim f = .ok (f t s) := by
  simp only [onTargetKey, decodeTarget_eq_ok_iff.2 rfl, decodeKey_eq_ok_iff.2 rfl, h, if_true]

end Rows

/-! ### Micro-step words -/

/-- A micro-step word that decodes is the word of what it decodes to: the rows of R77 in groups of one shape, then those
with an operand of their own. -/
theorem encode_of_decode_stepWord {op : Byte} {x : BitVec 2} {k : BitVec 6} {i : Instr}
    (h : decode (stepWord op x k) = .ok i) : i.wf = true ∧ encode i = stepWord op x k := by
  simp only [decode, stepWord, decodeStep, stepWord_fields] at h
  split at h
  case h_22 => cases h
  all_goals
    rename_i hop
    obtain rfl := eq_ofNat_of_toNat_eq hop
  case h_1 | h_15 | h_17 | h_18 | h_19 | h_20 | h_21 => exact encode_of_bare h rfl rfl
  case h_3 | h_4 | h_5 | h_6 | h_7 | h_8 => exact encode_of_onTarget h fun _ _ => ⟨rfl, rfl⟩
  case h_9 => exact encode_of_onTargetKey h fun _ _ _ => ⟨rfl, rfl⟩
  case h_11 | h_12 | h_13 | h_14 => exact encode_of_onTargetKey h fun _ _ takes => ⟨takes, rfl⟩
  case h_2 =>
    split at h
    next zero =>
      obtain rfl := zero
      exact encode_of_decodeWordIndex h
    · cases h
  case h_16 =>
    split at h
    next zero =>
      obtain rfl := zero
      exact encode_of_decodeClass h
    · cases h
  case h_10 =>
    split at h
    · cases h
    next real =>
      refine encode_of_onTarget h fun t ht => ⟨?_, rfl⟩
      cases t with
      | state | dfaCopy => rfl
      | scrState => exact absurd ht real

/-! ### The other words -/

theorem decode_hostWord (w : BitVec 1) (a d : Byte) :
    decode (.host (w ++ a ++ d)) = .ok (if w.getLsbD 0 then .hostWr a d else .hostRd a) := by
  simp only [decode, decodeHost, hostWord_fields]

/-- A host word that decodes: the data bits of a read are not kept (R74; log 12). -/
theorem encode_of_decode_hostWord {t : BitVec 17} {i : Instr} (h : decode (.host t) = .ok i) :
    i.wf = true ∧ (encode i = .host t ∨ ∃ a d : Byte, i = .hostRd a ∧ t = 0#1 ++ a ++ d) := by
  obtain ⟨wa, d, rfl⟩ := exists_eq_append (m := 9) (n := 8) t
  obtain ⟨w, a, rfl⟩ := exists_eq_append (m := 1) (n := 8) wa
  cases (decode_hostWord w a d).symm.trans h
  obtain rfl | rfl := BitVec.eq_zero_or_eq_one w
  · exact ⟨rfl, .inr ⟨a, d, rfl, rfl⟩⟩
  · exact ⟨rfl, .inl rfl⟩

/-- DECOY_GROUP's word, its fields decoded one by one (R78). -/
theorem decode_groupWord (kind : RoundKind) (x : Target) (n : Fin 11) (real : x.isReal = true)
    (takes : kind.takes (.round n) = true) :
    decode (.ustep24 (0x82#8 ++ x.code ++ (KeySel.round n).code ++ kind.op)) = .ok (.decoyGroup kind x n) := by
  simp only [decode, decodeGroup, groupWord_fields, decodeTarget_eq_ok_iff.2 rfl, decodeKey_eq_ok_iff.2 rfl,
    decodeKind_eq_ok_iff.2 rfl]
  cases x with
  | state | dfaCopy => simp [takes]
  | scrState => cases real

theorem encode_of_decode_groupWord {u : BitVec 24} {i : Instr} (h : decode (.ustep24 u) = .ok i) :
    i.wf = true ∧ encode i = .ustep24 u := by
  obtain ⟨opxn, op2, rfl⟩ := exists_eq_append (m := 16) (n := 8) u
  obtain ⟨opx, n, rfl⟩ := exists_eq_append (m := 10) (n := 6) opxn
  obtain ⟨op, x, rfl⟩ := exists_eq_append (m := 8) (n := 2) opx
  simp only [decode, decodeGroup, groupWord_fields] at h
  split at h
  · cases h
  next hop =>
    obtain rfl := Decidable.not_not.1 hop
    split at h
    case h_6 t m kind notScratch ht hm hkind =>
      split at h
      next takes =>
        cases h
        obtain rfl := decodeTarget_eq_ok_iff.1 ht
        obtain rfl := decodeKey_eq_ok_iff.1 hm
        obtain rfl := decodeKind_eq_ok_iff.1 hkind
        refine ⟨Bool.and_eq_true_iff.2 ⟨?_, takes⟩, rfl⟩
        cases t with
        | state | dfaCopy => rfl
        | scrState => exact absurd rfl notScratch
      · cases h
    all_goals cases h

/-- A function's word that decodes (R80; log 11). -/
theorem encode_of_decode_funcWord {f : BitVec 32} {i : Instr} (h : decode (.func f) = .ok i) :
    i.wf = true ∧ encode i = .func f := by
  obtain ⟨cba, id, rfl⟩ := exists_eq_append (m := 24) (n := 8) f
  obtain ⟨cb, a, rfl⟩ := exists_eq_append (m := 16) (n := 8) cba
  obtain ⟨c, b, rfl⟩ := exists_eq_append (m := 8) (n := 8) cb
  simp only [decode, decodeFunction, funcWord_fields] at h
  split at h
  case h_4 => cases h
  all_goals
    rename_i hid
    obtain rfl := eq_ofNat_of_toNat_eq hid
  case h_1 | h_2 =>
    split at h
    next zero =>
      cases h
      exact ⟨rfl, by rw [zero]; rfl⟩
    · cases h
  case h_3 =>
    cases h
    exact ⟨rfl, rfl⟩

/-- A command byte that decodes is a command's, and decodes to its instruction (R71). -/
theorem exists_command_of_decode_cmd {v : Byte} {i : Instr} (h : decode (.cmd v) = .ok i) :
    ∃ c : Command, v = c.byte ∧ i = c.instr := by
  cases hc : decodeCommand v with
  | none => simp [decode, hc] at h
  | some c =>
    simp only [decode, hc, Except.ok.injEq] at h
    exact ⟨c, decodeCommand_eq_some_iff.1 hc, h.symm⟩

theorem encode_of_decode_cmd {v : Byte} {i : Instr} (h : decode (.cmd v) = .ok i) :
    i.wf = true ∧ encode i = .cmd v := by
  obtain ⟨c, rfl, rfl⟩ := exists_command_of_decode_cmd h
  cases c <;> exact ⟨rfl, rfl⟩

/-! ### Both directions -/

/-- Settles O2: each kind of word gives its fields back, and each field its operand. -/
theorem encodedInstructionsDecodeBack : Obligations.EncodedInstructionsDecodeBack := by
  unfold Obligations.EncodedInstructionsDecodeBack
  intro i wf
  cases i with
  | expandKey | ecbEnc | ecbDec | cbcEnc | cbcDec | seed => rfl
  | hostWr a d => exact decode_hostWord 1 a d
  | hostRd a => exact decode_hostWord 0 a 0
  | keyCopy | idle | decoyFill | dfaSnapshot | dfaCompare | dual | prngSeed => rfl
  | subBytes x | invSubBytes x | shiftRows x | invShiftRows x | mixColumns x | invMixColumns x =>
    simp only [encode, stepWord, decode, decodeStep, stepWord_fields]
    exact onTarget_code x _
  | addRoundKey x k =>
    simp only [encode, stepWord, decode, decodeStep, stepWord_fields]
    exact onTargetKey_code x _ rfl
  | round x k | lastRound x k | firstInvRound x k | invRound x k =>
    simp only [encode, stepWord, decode, decodeStep, stepWord_fields]
    exact onTargetKey_code x _ wf
  | xorIv x =>
    cases x with
    | state | dfaCopy => rfl
    | scrState => cases wf
  | keyWord j =>
    simp only [encode, stepWord, decode, decodeStep, stepWord_fields]
    exact decodeWordIndex_ofNat (of_decide_eq_true wf)
  | delay d => cases d <;> rfl
  | decoyGroup kind x n =>
    obtain ⟨real, takes⟩ := Bool.and_eq_true_iff.1 wf
    exact decode_groupWord kind x n real takes
  | sboxLookup b | invSboxLookup b =>
    change decode (.func (0#8 ++ 0#8 ++ b ++ _)) = _
    simp only [decode, decodeFunction, funcWord_fields]
    rfl
  | gfMul a b poly =>
    simp only [encode, decode, decodeFunction, funcWord_fields]
    rfl

/-- Settles O3: one lemma for each kind of word. -/
theorem decodedWordsAreWellFormedAndUnique : Obligations.DecodedWordsAreWellFormedAndUnique := by
  unfold Obligations.DecodedWordsAreWellFormedAndUnique
  intro r i h
  cases r with
  | cmd v =>
    obtain ⟨wf, word⟩ := encode_of_decode_cmd h
    exact ⟨wf, .inl word⟩
  | host t =>
    obtain ⟨wf, word | ⟨a, d, hi, rfl⟩⟩ := encode_of_decode_hostWord h
    · exact ⟨wf, .inl word⟩
    · exact ⟨wf, .inr ⟨a, d, hi, rfl⟩⟩
  | ustep u =>
    obtain ⟨opx, k, rfl⟩ := exists_eq_append (m := 10) (n := 6) u
    obtain ⟨op, x, rfl⟩ := exists_eq_append (m := 8) (n := 2) opx
    obtain ⟨wf, word⟩ := encode_of_decode_stepWord h
    exact ⟨wf, .inl word⟩
  | ustep24 u =>
    obtain ⟨wf, word⟩ := encode_of_decode_groupWord h
    exact ⟨wf, .inl word⟩
  | func f =>
    obtain ⟨wf, word⟩ := encode_of_decode_funcWord h
    exact ⟨wf, .inl word⟩

/-- Settles O1: the decoder evaluates on each of the words. -/
theorem tableWordsDecode : Obligations.TableWordsDecode := by
  unfold Obligations.TableWordsDecode
  exact ⟨rfl, rfl, rfl, rfl, rfl, rfl, rfl, rfl, rfl, rfl, rfl, rfl, rfl, rfl, rfl⟩

end Sys2Proof
end

section
/-!
SUPPORT. What single instructions do: a write to CMD (R72), the entries that expand, in a running list and outside one
(R76, R140 to R143, R181), the passes of a round kind performed one after another, and the functions by themselves (R80).
-/
namespace Sys2Proof.Machine

/-! ### A write to CMD (R72) -/

/-- R71: the byte values of the commands a build has. -/
theorem exists_present_iff (b : Config.BuildFlags) (v : Byte) :
    (∃ c : Command, c.byte = v ∧ commandPresent b c = true) ↔
      v = 0x01 ∨ v = 0x03 ∨ v = 0x05 ∨ v = 0x06 ∨ ((v = 0x02 ∨ v = 0x04) ∧ b.encEn = true) := by
  constructor
  · rintro ⟨c, rfl, present⟩
    cases c with
    | expandKey => exact .inl rfl
    | ecbDec => exact .inr (.inl rfl)
    | cbcDec => exact .inr (.inr (.inl rfl))
    | seed => exact .inr (.inr (.inr (.inl rfl)))
    | ecbEnc => exact .inr (.inr (.inr (.inr ⟨.inl rfl, present⟩)))
    | cbcEnc => exact .inr (.inr (.inr (.inr ⟨.inr rfl, present⟩)))
  · rintro (rfl | rfl | rfl | rfl | ⟨rfl | rfl, enc⟩)
    · exact ⟨.expandKey, rfl, rfl⟩
    · exact ⟨.ecbDec, rfl, rfl⟩
    · exact ⟨.cbcDec, rfl, rfl⟩
    · exact ⟨.seed, rfl, rfl⟩
    · exact ⟨.ecbEnc, rfl, enc⟩
    · exact ⟨.cbcEnc, rfl, enc⟩

/-- A byte that names no command of the build is refused (R72, R73). -/
theorem writeCmd_of_absent {s : State} {v : Byte}
    (absent : ¬∃ c : Command, c.byte = v ∧ commandPresent s.config c = true) : s.writeCmd v = s.refuse := by
  unfold State.writeCmd
  split
  next c hc => exact if_neg fun present => absent ⟨c, (decodeCommand_eq_some_iff.1 hc).symm, present⟩
  · rfl

/-- Settles O16: the values of R72 are the bytes of the commands present, and every other value is refused. -/
theorem commandWriteIsAcceptedOrRefused : Obligations.CommandWriteIsAcceptedOrRefused := by
  unfold Obligations.CommandWriteIsAcceptedOrRefused
  intro s v idle
  simp only [← exists_present_iff s.config v]
  refine ⟨?_, fun absent => ?_⟩
  · rintro ⟨c, rfl, present⟩
    exact ⟨c, rfl, _, congrArg Host.Outcome.next (hostWrite_accept idle present), rfl, rfl⟩
  · have write : s.hostWrite cmdAddress v = s.writeCmd v := by simp [State.hostWrite, idle, locate_cmdAddress]
    exact congrArg Host.Outcome.next (write.trans (writeCmd_of_absent absent))

/-! ### Entries that expand (R76) -/

theorem exec_roundWord (kind : RoundKind) (x : Target) (k : KeySel) (s : State) :
    exec (roundWord kind x k) s = s.expanded fun t => t.expandRound kind x k := by
  cases kind <;> rfl

/-- Outside a running list there is nothing to replace (log 17). -/
theorem expanded_of_idle {s : State} (idle : s.seq = .idle) (f : State → State) :
    s.expanded f = .refused .macroOutsideList := by
  simp [State.expanded, busy_of_idle idle]

/-- Settles O48: DUAL's arm for each state of the sequencer, and `expanded` at Idle for the other entries that expand. -/
theorem dualRunsTheBodyTwice : Obligations.DualRunsTheBodyTwice := by
  unfold Obligations.DualRunsTheBodyTwice
  refine fun s => ⟨fun c rest hs hc => ?_, fun idle => ⟨?_, fun kind x k => ?_, fun d => ?_, fun kind x n => ?_⟩,
    fun c rest hs hc => ?_⟩
  · simp [exec, execDual, hs, hc, prepend_running hs, dualExpansion, State.putSeq]
  · simp [exec, execDual, idle]
  · exact (exec_roundWord kind x k s).trans (expanded_of_idle idle _)
  · exact expanded_of_idle idle (·.expandDelay d)
  · exact expanded_of_idle idle (·.expandGroup kind x n)
  · simp [exec, execDual, hs, hc]

/-! ### The passes of a round kind (R140 to R143) -/

/-- A target that can be read is as if written with what it holds. -/
theorem writeTarget_bytesOf {s : State} {x : Target} (ready : s.targetReady x) : s.writeTarget x (s.bytesOf x) = s := by
  cases x with
  | state =>
    have bits : { s.written with state := Vector.replicate 16 true } = s.written := by rw [← ready rfl]
    simp [State.writeTarget, State.putState, State.bytesOf, bits]
  | dfaCopy | scrState => rfl

/-- A pass after a write to its target. -/
theorem transform_writeTarget (s : State) (x : Target) (b : Block) (f : Block → Block) :
    (s.writeTarget x b).transform x f = s.writeTarget x (f b) := by
  simp [transform_of_ready (targetReady_writeTarget s x b)]

/-- A key addition after a write to its target: the key is not the target, and is read as it was (R136). -/
theorem addRoundKey_writeTarget {s : State} {k : KeySel} (ready : s.keyReady k) (x : Target) (b : Block) :
    ((s.writeTarget x b).combine x fun t => t.readKey k) = s.writeTarget x (xorBlock b (s.keyBytes k)) := by
  have ready' : (s.writeTarget x b).keyReady k := by cases x <;> cases k <;> exact ready
  have bytes : (s.writeTarget x b).keyBytes k = s.keyBytes k := by cases x <;> cases k <;> rfl
  simp [combine_of_ready (g := fun t => t.readKey k) (targetReady_writeTarget s x b) (readKey_of_ready ready'), bytes]

/-- The passes of a kind after a write to their target have the kind's net effect on what was written. -/
theorem execAll_roundPasses {s : State} {k : KeySel} (ready : s.keyReady k) (kind : RoundKind) (x : Target)
    (b : Block) :
    execAll (roundPasses kind x k) (s.writeTarget x b) = .next (s.writeTarget x (kindFn kind b (s.keyBytes k))) := by
  cases kind <;>
    simp only [roundPasses, execAll, exec, execSubBytes, execShiftRows, execMixColumns, execInvSubBytes,
      execInvShiftRows, execInvMixColumns, execAddRoundKey, transform_writeTarget, addRoundKey_writeTarget ready] <;>
    rfl

/-- Settles O32: the expansion is put at the head of the list, and the passes compose to the kind's net effect. -/
theorem roundKindsExpandToTheirPasses : Obligations.RoundKindsExpandToTheirPasses := by
  unfold Obligations.RoundKindsExpandToTheirPasses
  refine ⟨fun s c rest kind x k hs => ?_, fun s kind x k target key => ?_⟩
  · rw [exec_roundWord, expanded_of_busy (busy_of_running hs), State.expandRound, prepend_running hs]
    cases kind <;> rfl
  · have passes := execAll_roundPasses key kind x (s.bytesOf x)
    rw [writeTarget_bytesOf target] at passes
    rw [passes]
    cases kind <;> rfl

/-! ### The functions (R80) -/

/-- Settles O54: each function's arm writes `fnOut` alone. -/
theorem functionsGiveTheirValue : Obligations.FunctionsGiveTheirValue := fun _ _ _ _ => ⟨rfl, rfl, rfl⟩

end Sys2Proof.Machine
end

section
/-!
SUPPORT. What one step runs (R76, R82, R83, R211): the instruction its turn gives, and a word placed for it (log 21).
-/
namespace Sys2Proof.Machine

theorem mapNext_mapNext (f g : State → State) (o : Result) :
    mapNext g (mapNext f o) = mapNext (fun r => g (f r)) o := by
  cases o <;> rfl

/-! ### The instruction of a turn -/

section Turn

variable {s : State}

theorem step_of_txn {t : BitVec 17} {rest : List HostLine} (turn : s.nextTurn = .host)
    (line : s.host = .txn t :: rest) :
    step s = mapNext (fun r => settle (r.bindRead (decodeHost t)))
      (exec (decodeHost t) { s.dropTurn with host := rest, past := .host t :: s.past }) := by
  have host : hostTurn s.dropTurn = mapNext (fun r => r.bindRead (decodeHost t))
      (exec (decodeHost t) ({ s.dropTurn with host := rest }.note (.host t))) := by
    simp [hostTurn, line]
  rw [step, turn, takeTurn, host, mapNext_mapNext]
  rfl

theorem step_of_wait {rest : List HostLine} (turn : s.nextTurn = .host) (line : s.host = .wait :: rest) :
    step s = mapNext (fun r => settle (r.afterPoll rest))
      (exec (.hostRd 0x35#8) { s.dropTurn with past := .poll :: s.past }) := by
  have host : hostTurn s.dropTurn = mapNext (fun r => r.afterPoll rest)
      (exec (.hostRd statusAddress) (s.dropTurn.note .poll)) := by
    simp [hostTurn, line]
  rw [step, turn, takeTurn, host, mapNext_mapNext]
  rfl

theorem step_of_func {f : BitVec 32} {i : Instr} (turn : s.nextTurn = .func f) (hf : decodeFunction f = .ok i) :
    step s = mapNext settle (exec i { s.dropTurn with past := .func f :: s.past }) := by
  have func : funcTurn f s.dropTurn = exec i (s.dropTurn.note (.func f)) := by simp [funcTurn, hf]
  rw [step, turn, takeTurn, func]
  rfl

/-- Only an `rd` line binds a byte (R82). -/
theorem bindRead_of_ne {i : Instr} (h : ∀ a, i ≠ .hostRd a) : s.bindRead i = s := by
  cases i with
  | hostRd a => exact absurd rfl (h a)
  | _ => rfl

end Turn

/-- Settles O6: one rule per kind of turn, then what binding and polling do. -/
theorem stepRunsTheTurnsInstruction : Obligations.StepRunsTheTurnsInstruction := by
  unfold Obligations.StepRunsTheTurnsInstruction
  refine ⟨fun s t rest turn line => step_of_txn turn line, fun s rest turn line => step_of_wait turn line,
    fun s c u rest turn hs => step_of_core hs turn, fun r a => rfl, fun r i h => bindRead_of_ne h,
    fun r rest h => if_pos h, fun r rest h => if_neg (ne_true_of_eq_false h)⟩

/-! ### A placed word -/

section Placed

variable {s : State} {nbits w : Nat} {i : Instr}

/-- A word of the opcode table that is an instruction is well formed and is placed. -/
theorem withFetchWord_of_decoded (s : State) (h : decodeTableWord nbits w = some i) :
    i.wf = true ∧ s.withFetchWord nbits w = s.placeWord i := by
  refine ⟨?_, by simp [State.withFetchWord, h]⟩
  unfold decodeTableWord at h
  split at h
  next r hr =>
    split at h
    next j hj =>
      cases h
      exact (decodedWordsAreWellFormedAndUnique r i hj).1
    · cases h
  · cases h

/-- A well-formed instruction's word decodes back, whichever kind of word it is. -/
theorem decode_of_encode {r : RawWord} (wf : i.wf = true) (word : encode i = r) : decode r = .ok i :=
  word ▸ encodedInstructionsDecodeBack i wf

/-- A command instruction is the write of its byte to CMD, and binds nothing (R72). -/
theorem command_of_decode_cmd {v : Byte} (h : decode (.cmd v) = .ok i) :
    (∀ s, exec (.hostWr cmdAddress v) s = exec i s) ∧ ∀ a, i ≠ .hostRd a := by
  obtain ⟨c, rfl, rfl⟩ := exists_command_of_decode_cmd h
  cases c <;> exact ⟨fun _ => rfl, nofun⟩

/-- Settles O7: where each kind of word is placed, the rule of its turn runs it. -/
theorem stepRunsThePlacedWord : Obligations.StepRunsThePlacedWord := by
  unfold Obligations.StepRunsThePlacedWord
  intro s nbits w i h
  obtain ⟨wf, placed⟩ := withFetchWord_of_decoded s h
  rw [placed]
  refine ⟨?_, fun f word => ?_, ?_⟩
  · rintro t (word | ⟨v, word, rfl⟩)
    · have place : s.placeWord i = s.placeTxn t := by simp [State.placeWord, word]
      have back : decodeHost t = i := Except.ok.inj (decode_of_encode wf word)
      rw [place, step_of_txn rfl rfl, back]
      rfl
    · have place : s.placeWord i = s.placeTxn (1#1 ++ 0x34#8 ++ v) := by simp [State.placeWord, word, cmdAddress]
      have write : decodeHost (1#1 ++ 0x34#8 ++ v) = .hostWr cmdAddress v :=
        Except.ok.inj (decode_hostWord 1 0x34 v)
      obtain ⟨run, notRead⟩ := command_of_decode_cmd (decode_of_encode wf word)
      rw [place, step_of_txn rfl rfl, write, run]
      simp only [bindRead_of_ne notRead]
      rfl
  · have place : s.placeWord i = { s with turns := .func f :: s.turns } := by simp [State.placeWord, word]
    rw [place, step_of_func rfl (decode_of_encode wf word)]
    rfl
  · intro word idle
    have place : s.placeWord i = s.placeStep i := by
      obtain ⟨u, hu⟩ | ⟨u, hu⟩ := word <;> simp [State.placeWord, hu]
    rw [place, State.placeStep, idle]
    exact step_of_core rfl rfl

end Placed

end Sys2Proof.Machine
end

section
/-!
SUPPORT. The run in which no other agent acts (R76; log 9), step by step: every command ends (R76), and the cipher commands
without hardening after as many steps as R243 counts.
-/
namespace Sys2Proof.Machine

/-! ### Runs of a given length -/

/-- `n` steps lead from `s` to `t`, BUSY is 1 before each of them and 0 at `t`. -/
structure FinishesIn (n : Nat) (s t : State) : Prop where
  run : Host.Core.run core n s = .next t
  before : ∀ m, m < n → ∃ u, Host.Core.run core m s = .next u ∧ u.statusByte = 0x01#8
  idle : t.seq = .idle

namespace FinishesIn

variable {n : Nat} {s r t : State} {c : Command} {u : Instr} {rest : List Instr}

theorem done (idle : s.seq = .idle) : FinishesIn 0 s s := ⟨rfl, nofun, idle⟩

theorem step (busy : s.busy = true) (h : Machine.step s = .next r) (k : FinishesIn n r t) : FinishesIn (n + 1) s t where
  run := (run_succ_of_step h n).trans k.run
  before := by
    intro m hm
    cases m with
    | zero => exact ⟨s, rfl, by simp [State.statusByte, busy]⟩
    | succ m =>
      rw [run_succ_of_step h]
      exact k.before m (Nat.lt_of_succ_lt_succ hm)
  idle := k.idle

/-- An empty list ends its command in no step. -/
theorem nil (hs : s.seq = .running c []) : FinishesIn 0 (settle s) (s.endCommand c) := by
  rw [settle_of_nil hs]
  exact done (endCommand_seq s c)

/-- With no turn scheduled the sequencer performs its head, in one step (R76). -/
theorem cons (hs : s.seq = .running c (u :: rest)) (hu : isMacro u = false) (turns : s.turns = [])
    (he : exec u ((s.putSeq (.running c rest)).note (.core u)) = .next r) (k : FinishesIn n (settle r) t) :
    FinishesIn (n + 1) (settle s) t := by
  have turn : s.nextTurn = .core := by simp [State.nextTurn, turns, busy_of_running hs]
  have kept : s.dropTurn = s := by
    unfold State.dropTurn
    rw [turns, List.tail_nil, ← turns]
  rw [settle_of_head hs hu]
  refine step (busy_of_running hs) ?_ k
  rw [step_of_core hs turn, kept, he]
  rfl

end FinishesIn

/-! ### Every command ends -/

/-- A produced entry that is not expanded answers (R200). -/
theorem exec_answers {b : Config.BuildFlags} {c : Command} {u : Instr} (hu : isMacro u = false)
    (hp : produced b c u = true) (s : State) : ∃ t, exec u s = .next t := by
  cases u with
  | keyWord j =>
    have index : 4 ≤ j.val := of_decide_eq_true (Bool.and_eq_true_iff.1 hp).2
    exact ⟨s.keyWord j, if_pos index⟩
  | dfaCompare =>
    simp only [exec, execDfaCompare]
    split <;> exact ⟨_, rfl⟩
  | round | lastRound | firstInvRound | invRound | delay | decoyGroup | dual => cases hu
  | _ => exact ⟨_, rfl⟩

/-- While BUSY is 1 such an entry leaves the sequencer to the list that remains. -/
theorem seq_of_effect {s t : State} {u : Instr} (busy : s.busy = true) (hu : isMacro u = false) (h : Effect s u t) :
    t.seq = s.seq := by
  cases h with
  | work hw => exact hw.seq
  | schedule _ hw => exact hw.seq
  | mismatch hw => exact hw.seq
  | expansion hm => cases hu.symm.trans hm
  | store idle | accept idle | refuse idle => cases busy.symm.trans idle

/-- How many micro-steps an entry is, in a build without hardening (R140 to R143, R243). -/
def microSteps : Instr → Nat
  | .round _ _ | .invRound _ _ => 4
  | .lastRound _ _ | .firstInvRound _ _ => 3
  | _ => 1

/-- How many micro-steps a list is. -/
def countSteps (l : List Instr) : Nat := (l.map microSteps).sum

@[simp] theorem countSteps_nil : countSteps [] = 0 := rfl

@[simp] theorem countSteps_cons (u : Instr) (l : List Instr) : countSteps (u :: l) = microSteps u + countSteps l := by
  simp [countSteps]

@[simp] theorem countSteps_append (l m : List Instr) : countSteps (l ++ m) = countSteps l + countSteps m := by
  simp [countSteps]

theorem microSteps_of_head {u : Instr} (hu : isMacro u = false) : microSteps u = 1 := by
  cases u with
  | round | lastRound | firstInvRound | invRound => cases hu
  | _ => rfl

/-- The hardening flags of a build are 0 (R186). -/
structure Unhardened (b : Config.BuildFlags) : Prop where
  rdelay : b.rdelayEn = false
  dummy : b.dummyEn = false
  antidfa : b.antidfaEn = false

namespace Unhardened

variable {b : Config.BuildFlags}

theorem padPass_eq (plain : Unhardened b) (p : Instr) : padPass b p = [p] := by
  simp [padPass, plain.rdelay]

theorem hardRound_eq (plain : Unhardened b) (kind : RoundKind) (x : Target) (n : Fin 11) :
    hardRound b kind x n = [roundWord kind x (.round n)] := by
  simp [hardRound, groupOf, plain.rdelay, plain.dummy]

theorem commandSteps_eq (plain : Unhardened b) {c : Command} (hc : c.isCipher = true) :
    commandSteps b c = cipherBody b c .state := by
  cases c with
  | expandKey | seed => cases hc
  | ecbEnc | ecbDec | cbcEnc | cbcDec => simp [commandSteps, cipherSteps, midSteps, plain.rdelay, plain.antidfa]

/-- R243: a key addition, nine rounds of four passes and one of three. -/
theorem countSteps_encBody (plain : Unhardened b) (x : Target) : countSteps (encBody b x) = 40 := by
  simp [encBody, plain.padPass_eq, plain.hardRound_eq, innerRounds, roundWord, microSteps]

theorem countSteps_decBody (plain : Unhardened b) (x : Target) : countSteps (decBody b x) = 40 := by
  simp [decBody, plain.padPass_eq, plain.hardRound_eq, innerRounds, roundWord, microSteps]

/-- R243: the CBC commands add IV. -/
theorem countSteps_commandSteps (plain : Unhardened b) {c : Command} (hc : c.isCipher = true) :
    countSteps (commandSteps b c) = if usesIv c then 41 else 40 := by
  rw [plain.commandSteps_eq hc]
  cases c with
  | expandKey | seed => cases hc
  | ecbEnc => exact plain.countSteps_encBody .state
  | ecbDec => exact plain.countSteps_decBody .state
  | cbcEnc => simp [cipherBody, plain.countSteps_encBody, plain.padPass_eq, usesIv, microSteps]
  | cbcDec => simp [cipherBody, plain.countSteps_decBody, plain.padPass_eq, usesIv, microSteps]

/-- An expansion is the passes of its round kind, which are as many micro-steps. -/
theorem countSteps_of_expands (plain : Unhardened b) {c : Command} {u : Instr} {l : List Instr} (h : Expands b c u l)
    (hu : produced b c u = true) : countSteps l = microSteps u := by
  cases h with
  | round kind x k =>
    rw [roundExpansion, funext plain.padPass_eq]
    cases kind <;> rfl
  | delay d n => cases d <;> simp [produced, plain.rdelay, plain.antidfa] at hu
  | group kind x n pos => simp [produced, plain.dummy] at hu
  | dual => simp [produced, plain.antidfa] at hu

end Unhardened

/-- A list of produced entries comes to its end, and without hardening in as many steps as it has micro-steps. -/
theorem exists_finishesIn (b : Config.BuildFlags) (c : Command) (l : List Instr) :
    ∀ s : State, s.config = b → s.turns = [] → s.seq = .running c l → AllProduced b c l →
      ∃ n t, FinishesIn n (settle s) t ∧ (Unhardened b → n = countSteps l) := by
  induction l using expansion_induction (b := b) (c := c) with
  | nil => exact fun s _ _ hs _ => ⟨0, _, .nil hs, fun _ => rfl⟩
  | step u rest hu ih =>
    intro s config turns hs hl
    obtain ⟨hup, hrest⟩ := AllProduced.cons_iff.1 hl
    obtain ⟨r, he⟩ := exec_answers hu hup ((s.putSeq (.running c rest)).note (.core u))
    have frame := SameSurroundings.of_exec he
    obtain ⟨n, t, finishes, count⟩ :=
      ih r (frame.config.trans config) (frame.turns.trans turns) (seq_of_effect rfl hu (.of_exec he)) hrest
    refine ⟨n + 1, t, .cons hs hu turns he finishes, fun plain => ?_⟩
    rw [countSteps_cons, microSteps_of_head hu, count plain, Nat.add_comm]
  | expand u rest hu ih =>
    intro s config turns hs hl
    obtain ⟨r, l, he, hr, hexp, entries, hsettle⟩ := settle_expand hs hu (config ▸ hl)
    have frame := SameSurroundings.of_exec he
    have config' : r.config = b := frame.config.trans config
    rw [config] at hexp
    rw [config'] at entries
    obtain ⟨n, t, finishes, count⟩ := ih l hexp r config' (frame.turns.trans turns) hr entries
    refine ⟨n, t, hsettle ▸ finishes, fun plain => ?_⟩
    have same := plain.countSteps_of_expands hexp (AllProduced.cons_iff.1 hl).1
    rw [count plain, countSteps_append, countSteps_cons, same]

/-- Settles O11: the invariant's list is one of produced entries, already settled. -/
theorem everyCommandEnds : Obligations.EveryCommandEnds := by
  unfold Obligations.EveryCommandEnds
  intro s hok turns
  cases hs : s.seq with
  | idle => exact ⟨0, s, rfl, hs⟩
  | running c l =>
    obtain ⟨-, entries⟩ := listOk_of_seqOk hok c l hs
    obtain ⟨n, t, finishes, -⟩ := exists_finishesIn s.config c l s rfl turns hs entries
    cases l with
    | nil => cases (seqOk_eq_false_of_nil hs).symm.trans hok
    | cons u rest =>
      obtain ⟨-, hu, -⟩ := (seqOk_iff_of_running hs).1 hok
      rw [settle_of_head hs hu] at finishes
      exact ⟨n, t, finishes.run, finishes.idle⟩

/-- Settles O40: the accepted list is one of produced entries, counted. -/
theorem baseCipherStepCounts : Obligations.BaseCipherStepCounts := by
  unfold Obligations.BaseCipherStepCounts
  intro s c hc present idle turns rdelay dummy antidfa
  have plain : Unhardened s.config := ⟨rdelay, dummy, antidfa⟩
  obtain ⟨n, t, finishes, count⟩ :=
    exists_finishesIn s.config c _ (s.accept c) rfl turns rfl (allProduced_commandSteps s.config c)
  rw [count plain, plain.countSteps_commandSteps hc] at finishes
  exact ⟨finishes.before, t, finishes.run, finishes.idle⟩

end Sys2Proof.Machine
end

section
/-!
SUPPORT. EXPAND_KEY (41_key_schedule R121 to R124): its words one after another, each from words below it, and the run
of the whole command when no other agent acts (log 9).
-/
namespace Sys2Proof.Machine

/-! ### The words in order (R121) -/

/-- The word indexes from `n` on. -/
def wordsFrom (n : Nat) : List (Fin 44) := (List.finRange 44).drop n

theorem wordsFrom_end : wordsFrom 44 = [] := rfl

theorem wordsFrom_of_lt {n : Nat} (h : n < 44) : wordsFrom n = ⟨n, h⟩ :: wordsFrom (n + 1) := by
  rw [wordsFrom, List.drop_eq_getElem_cons (by simpa using h)]
  simp [wordsFrom]

/-- Two vectors of SCHED's length hold the same in their first `n` places. -/
def AgreeBelow {α : Type} (n : Nat) (v w : Vector α 176) : Prop := ∀ j : Fin 176, j.val < n → v[j] = w[j]

theorem AgreeBelow.eq {α : Type} {n : Nat} {v w : Vector α 176} (h : AgreeBelow n v w) (all : 176 ≤ n) : v = w :=
  Vector.ext fun j hj => h ⟨j, hj⟩ (Nat.lt_of_lt_of_le hj all)

theorem AgreeBelow.wordAt_eq {n : Nat} {r r' : Sched} (h : AgreeBelow n r r') {i : Fin 44} (hi : 4 * i.val + 4 ≤ n) :
    wordAt r i = wordAt r' i := by
  refine Vector.ext fun j hj => ?_
  simp only [wordAt, Vector.getElem_ofFn]
  exact h ⟨4 * i.val + j, by omega⟩ (by simp only; omega)

/-- One iteration of the loop reads words below its own only. -/
theorem AgreeBelow.expandWord {r r' : Sched} {i : Fin 44} (h4 : 4 ≤ i.val) (h : AgreeBelow (4 * i.val) r r') :
    AgreeBelow (4 * (i.val + 1)) (expandWord r i) (expandWord r' i) := by
  have prev : wordAt r (wordBefore i 1) = wordAt r' (wordBefore i 1) := h.wordAt_eq (by simp only [wordBefore]; omega)
  have back : wordAt r (wordBefore i 4) = wordAt r' (wordBefore i 4) := h.wordAt_eq (by simp only [wordBefore]; omega)
  intro j hj
  simp only [Machine.expandWord, setWord, prev, back, Fin.getElem_fin, Vector.getElem_ofFn]
  split
  · rfl
  next other => exact h j (by omega)

/-- The words from `n` on depend on the schedule below them only. -/
theorem foldl_expandWord_eq_of_agreeBelow {m n : Nat} (hn : n + m = 44) (h4 : 4 ≤ n) {r r' : Sched}
    (h : AgreeBelow (4 * n) r r') : (wordsFrom n).foldl expandWord r = (wordsFrom n).foldl expandWord r' := by
  induction m generalizing n r r' with
  | zero =>
    obtain rfl : n = 44 := hn
    rw [wordsFrom_end]
    exact h.eq (Nat.le_refl 176)
  | succ m ih =>
    rw [wordsFrom_of_lt (by omega), List.foldl_cons, List.foldl_cons]
    exact ih (n := n + 1) (by omega) (by omega) (AgreeBelow.expandWord (i := ⟨n, by omega⟩) h4 h)

/-! ### One micro-step -/

/-- The first `n` bytes of SCHED are written (R36). -/
def WrittenBelow (n : Nat) (w : Vector Bool 176) : Prop := AgreeBelow n w (Vector.replicate 176 true)

theorem wordWritten_of_below {s : State} {n : Nat} (h : WrittenBelow n s.written.sched) {i : Fin 44}
    (hi : 4 * i.val + 4 ≤ n) : wordWritten s.written.sched i = Vector.replicate 4 true := by
  refine Vector.ext fun j hj => ?_
  have bit := h ⟨4 * i.val + j, by omega⟩ (by simp only; omega)
  simpa [wordWritten] using bit

/-- KEY_WORD i where every word below is written: one iteration of the loop, and word i is written too (R124). -/
theorem exec_keyWord_of_below {s : State} {i : Fin 44} (h4 : 4 ≤ i.val)
    (h : WrittenBelow (4 * i.val) s.written.sched) :
    ∃ r w, exec (.keyWord i) s = .next r ∧ r = s.putSched (expandWord s.sched i) w ∧
      WrittenBelow (4 * (i.val + 1)) w := by
  have back := readWord_of_written (wordWritten_of_below h (i := wordBefore i 4) (by simp only [wordBefore]; omega))
  have prev := readWord_of_written (wordWritten_of_below h (i := wordBefore i 1) (by simp only [wordBefore]; omega))
  refine ⟨s.keyWord i, _, if_pos h4, by simp only [State.keyWord, back, prev]; rfl, fun j hj => ?_⟩
  simp only [Fin.getElem_fin, Vector.getElem_ofFn]
  split
  · simp
  next other => exact h j (by omega)

/-- KEY_COPY where KEY is written: round key 0 is the key, and is written (R123). -/
theorem exec_keyCopy_of_written {s : State} (h : s.keyWritten) :
    ∃ r w, exec .keyCopy s = .next r ∧ r = s.putSched (setRoundKey0 s.sched s.key) w ∧
      WrittenBelow 16 w := by
  refine ⟨s.keyCopy, _, rfl, by simp only [State.keyCopy, readKeyBuf_of_written h]; rfl, fun j hj => ?_⟩
  simp [hj]

/-! ### The run -/

/-- `s` at the end of EXPAND_KEY, with the schedule `r` and the micro-steps `us` performed since (R122). -/
def State.scheduled (s : State) (r : Sched) (us : List Instr) : State :=
  { s with
    seq := .idle, sched := r, written := { s.written with sched := Vector.replicate 176 true },
    past := (us.map Config.RunEvent.core).reverse ++ s.past }

/-- One micro-step before the others. -/
theorem scheduled_cons (s : State) (q : Seq) (u : Instr) (k : Sched) (w : Vector Bool 176) (r : Sched)
    (us : List Instr) :
    (((s.putSeq q).note (.core u)).putSched k w).scheduled r us = s.scheduled r (u :: us) := by
  simp [State.scheduled]

/-- The KEY_WORDs from word `n` on, the schedule below it written: the rest of the loop, one step a word. -/
theorem finishesIn_keyWords {m n : Nat} (hn : n + m = 44) (h4 : 4 ≤ n) {s : State}
    (hs : s.seq = .running .expandKey ((wordsFrom n).map .keyWord)) (turns : s.turns = [])
    (written : WrittenBelow (4 * n) s.written.sched) :
    FinishesIn m (settle s) (s.scheduled ((wordsFrom n).foldl expandWord s.sched) ((wordsFrom n).map .keyWord)) := by
  induction m generalizing n s with
  | zero =>
    obtain rfl : n = 44 := hn
    rw [wordsFrom_end] at hs ⊢
    rw [State.scheduled, ← written.eq (Nat.le_refl 176)]
    exact .nil hs
  | succ m ih =>
    have lt : n < 44 := by omega
    rw [wordsFrom_of_lt lt] at hs ⊢
    obtain ⟨r, w, he, hr, written'⟩ := exec_keyWord_of_below
      (s := (s.putSeq (.running .expandKey ((wordsFrom (n + 1)).map .keyWord))).note (.core (.keyWord ⟨n, lt⟩)))
      (i := ⟨n, lt⟩) h4 written
    have rest := ih (n := n + 1) (by omega) (by omega) (s := r) (by simp [hr]) (by simp [hr, turns])
      (by simpa [hr] using written')
    have run := FinishesIn.cons hs rfl turns he rest
    have sched : r.sched = expandWord s.sched ⟨n, lt⟩ := by simp [hr]
    rw [sched, hr, scheduled_cons] at run
    rw [List.foldl_cons, List.map_cons]
    exact run

/-- Settles O36: KEY_COPY and the loop, which does not depend on the schedule above round key 0. -/
theorem expandKeyWritesTheSchedule : Obligations.ExpandKeyWritesTheSchedule := by
  unfold Obligations.ExpandKeyWritesTheSchedule
  intro s idle turns key
  obtain ⟨r, w, he, hr, written⟩ := exec_keyCopy_of_written
    (s := ((s.accept .expandKey).putSeq (.running .expandKey (wordIndexes.map .keyWord))).note (.core .keyCopy)) key
  have words := finishesIn_keyWords (m := 40) (n := 4) rfl (Nat.le_refl 4) (s := r) (by rw [hr]; rfl)
    (by simpa [hr, State.accept] using turns) (by simpa [hr] using written)
  have run := FinishesIn.cons (s := s.accept .expandKey) rfl rfl turns he words
  have sched : (wordsFrom 4).foldl expandWord r.sched = keyExpand s.key := by
    refine foldl_expandWord_eq_of_agreeBelow (m := 40) rfl (Nat.le_refl 4) fun j hj => ?_
    simp [hr, setRoundKey0, State.accept, show j.val < 16 from hj]
  rw [sched, hr, scheduled_cons] at run
  refine ⟨run.before, run.run.trans ?_⟩
  simp [State.scheduled, State.accept, wordsFrom, idle]

end Sys2Proof.Machine
end

section
/-!
SUPPORT. Multiplication of polynomials over GF(2) by shift and add. The loop of GF_MUL (R100) and the product of R101
are one loop; they differ in what multiplication by `x` is.
-/
namespace Sys2Proof.Machine

/-- `n` rounds: `a` is added to the product `p` where the lowest bit of `b` is set, then `a` is multiplied by `x`, which
is `T`, and `b` loses that bit. -/
def mulLoop {w : Nat} (T : BitVec w → BitVec w) : Nat → BitVec w → Byte → BitVec w → BitVec w
  | 0, _, _, p => p
  | n + 1, a, b, p => mulLoop T n (T a) (b >>> 1) (p ^^^ if b.getLsbD 0 then a else 0#w)

/-! ### Sums where a bit is set -/

theorem ite_xor_cond {w : Nat} (c c' : Bool) (x : BitVec w) :
    (if c ^^ c' then x else 0#w) = (if c then x else 0#w) ^^^ if c' then x else 0#w := by
  cases c <;> cases c' <;> simp

theorem ite_xor_then {w : Nat} (c : Bool) (x y : BitVec w) :
    (if c then x ^^^ y else 0#w) = (if c then x else 0#w) ^^^ if c then y else 0#w := by
  cases c <;> simp

theorem xor_xor_xor_cancel {w : Nat} (x y z : BitVec w) : (x ^^^ y) ^^^ (z ^^^ y) = x ^^^ z := by
  rw [BitVec.xor_comm z, BitVec.xor_assoc, ← BitVec.xor_assoc y, BitVec.xor_self, BitVec.zero_xor]

theorem map_zero_of_xor {w : Nat} {f : BitVec w → BitVec w} (add : ∀ x y, f (x ^^^ y) = f x ^^^ f y) :
    f 0#w = 0#w := by
  simpa using add 0#w 0#w

/-! ### The loop is additive -/

theorem mulLoop_xor_left {w : Nat} {T : BitVec w → BitVec w} (add : ∀ x y, T (x ^^^ y) = T x ^^^ T y) (n : Nat)
    (a a' : BitVec w) (b : Byte) (p p' : BitVec w) :
    mulLoop T n (a ^^^ a') b (p ^^^ p') = mulLoop T n a b p ^^^ mulLoop T n a' b p' := by
  induction n generalizing a a' b p p' with
  | zero => rfl
  | succ n ih =>
    simp only [mulLoop, add, ← ih, ite_xor_then]
    congr 1
    ac_rfl

theorem mulLoop_xor_right {w : Nat} (T : BitVec w → BitVec w) (n : Nat) (a : BitVec w) (b b' : Byte)
    (p p' : BitVec w) :
    mulLoop T n a (b ^^^ b') (p ^^^ p') = mulLoop T n a b p ^^^ mulLoop T n a b' p' := by
  induction n generalizing a b b' p p' with
  | zero => rfl
  | succ n ih =>
    simp only [mulLoop, BitVec.ushiftRight_xor_distrib, BitVec.getLsbD_xor, ← ih, ite_xor_cond]
    congr 1
    ac_rfl

/-- An additive map that commutes with multiplication by `x` can be applied before the loop or after it. -/
theorem map_mulLoop {w : Nat} {T f : BitVec w → BitVec w} (add : ∀ x y, f (x ^^^ y) = f x ^^^ f y)
    (comm : ∀ x, f (T x) = T (f x)) (n : Nat) (a : BitVec w) (b : Byte) (p : BitVec w) :
    f (mulLoop T n a b p) = mulLoop T n (f a) b (f p) := by
  induction n generalizing a b p with
  | zero => rfl
  | succ n ih => simp only [mulLoop, ih, comm, add, apply_ite f, map_zero_of_xor add]

/-- The round of a bit that is clear, when all bits above it are shifted out, changes nothing. -/
theorem mulLoop_succ_of_top {w : Nat} (T : BitVec w → BitVec w) {n : Nat} {b : Byte} (top : b.getLsbD n = false)
    (a p : BitVec w) : mulLoop T (n + 1) a b p = mulLoop T n a b p := by
  induction n generalizing a b p with
  | zero =>
    simp only [mulLoop, top]
    exact BitVec.xor_zero
  | succ n ih =>
    have top' : (b >>> 1).getLsbD n = false := by rw [BitVec.getLsbD_ushiftRight, Nat.add_comm, top]
    rw [mulLoop, ih top', mulLoop]

/-! ### GF_MUL for every `poly` (R100, R103) -/

/-- Multiplication by `x` modulo `x^8 + poly(x)` (R103). -/
def xtime (poly a : Byte) : Byte := (a <<< 1) ^^^ (if a.getLsbD 7 then poly else 0#8)

theorem xtime_xor (poly a a' : Byte) : xtime poly (a ^^^ a') = xtime poly a ^^^ xtime poly a' := by
  simp only [xtime, BitVec.getLsbD_xor, BitVec.shiftLeft_xor_distrib, ite_xor_cond]
  ac_rfl

theorem gfMulLoop_eq_mulLoop (poly : Byte) (n : Nat) (a b p : Byte) :
    gfMulLoop poly n a b p = mulLoop (xtime poly) n a b p := by
  induction n generalizing a b p with
  | zero => rfl
  | succ n ih =>
    rw [gfMulLoop, ih, mulLoop, xtime]
    cases a.getLsbD 7 <;> cases b.getLsbD 0 <;> simp

theorem gfMul_eq_mulLoop (a b poly : Byte) : gfMul a b poly = mulLoop (xtime poly) 8 a b 0#8 :=
  gfMulLoop_eq_mulLoop poly 8 a b 0

theorem xor_gfMul (a a' b poly : Byte) : gfMul (a ^^^ a') b poly = gfMul a b poly ^^^ gfMul a' b poly := by
  rw [gfMul_eq_mulLoop, gfMul_eq_mulLoop, gfMul_eq_mulLoop]
  exact mulLoop_xor_left (xtime_xor poly) 8 a a' b 0#8 0#8

theorem gfMul_xor (a b b' poly : Byte) : gfMul a (b ^^^ b') poly = gfMul a b poly ^^^ gfMul a b' poly := by
  rw [gfMul_eq_mulLoop, gfMul_eq_mulLoop, gfMul_eq_mulLoop]
  exact mulLoop_xor_right (xtime poly) 8 a b b' 0#8 0#8

theorem map_gfMul {poly : Byte} {f : Byte → Byte} (add : ∀ x y, f (x ^^^ y) = f x ^^^ f y)
    (comm : ∀ x, f (xtime poly x) = xtime poly (f x)) (a b : Byte) : f (gfMul a b poly) = gfMul (f a) b poly := by
  rw [gfMul_eq_mulLoop, gfMul_eq_mulLoop, map_mulLoop add comm, map_zero_of_xor add]

theorem xtime_gfMul (a b poly : Byte) : gfMul (xtime poly a) b poly = xtime poly (gfMul a b poly) :=
  (map_gfMul (xtime_xor poly) (fun _ => rfl) a b).symm

/-- Multiplication by `c` is additive and commutes with multiplication by `x`, so it commutes with multiplication by
`b`. -/
theorem gfMul_right_comm (a b c poly : Byte) : gfMul (gfMul a b poly) c poly = gfMul (gfMul a c poly) b poly :=
  map_gfMul (f := (gfMul · c poly)) (xor_gfMul · · c poly) (xtime_gfMul · c poly) a b

theorem zero_gfMul (b poly : Byte) : gfMul 0 b poly = 0 :=
  map_zero_of_xor (f := (gfMul · b poly)) (xor_gfMul · · b poly)

/-! ### The identity -/

theorem eq_lowBit_xor (b : Byte) : b = (if b.getLsbD 0 then 1#8 else 0#8) ^^^ (b >>> 1) <<< 1 := by
  refine BitVec.eq_of_getLsbD_eq fun i hi => ?_
  cases i with
  | zero => cases b.getLsbD 0 <;> simp
  | succ i => cases b.getLsbD 0 <;> simp [hi, Nat.add_comm]

theorem shiftLeft_eq_lowBit_xor (b : Byte) (k : Nat) :
    b <<< k = (if b.getLsbD 0 then 1#8 <<< k else 0#8) ^^^ (b >>> 1) <<< (k + 1) := by
  calc b <<< k
    _ = ((if b.getLsbD 0 then 1#8 else 0#8) ^^^ (b >>> 1) <<< 1) <<< k := by rw [← eq_lowBit_xor]
    _ = (if b.getLsbD 0 then 1#8 else 0#8) <<< k ^^^ (b >>> 1) <<< (k + 1) := by
      rw [BitVec.shiftLeft_xor_distrib, ← BitVec.shiftLeft_add, Nat.add_comm]
    _ = (if b.getLsbD 0 then 1#8 <<< k else 0#8) ^^^ (b >>> 1) <<< (k + 1) := by
      rw [apply_ite (fun x : Byte => x <<< k), BitVec.zero_shiftLeft]

theorem xtime_power (poly : Byte) {k : Nat} (hk : k < 7) : xtime poly (1#8 <<< k) = 1#8 <<< (k + 1) := by
  have top : (1#8 <<< k).getLsbD 7 = false := by simp; omega
  rw [xtime, top, ← BitVec.shiftLeft_add]
  exact BitVec.xor_zero

/-- From `x^k` on, the rounds that are left never reduce: they add `b` times `x^k`. -/
theorem mulLoop_power (poly : Byte) {n k : Nat} (hn : n + k = 8) (b p : Byte) :
    mulLoop (xtime poly) n (1#8 <<< k) b p = p ^^^ b <<< k := by
  induction n generalizing k b p with
  | zero =>
    obtain rfl : k = 8 := by omega
    simp [mulLoop]
  | succ n ih =>
    rw [mulLoop, shiftLeft_eq_lowBit_xor b, ← BitVec.xor_assoc]
    obtain hk | rfl : k < 7 ∨ k = 7 := by omega
    · rw [xtime_power poly hk, ih (by omega)]
    · obtain rfl : n = 0 := by omega
      simp [mulLoop]

theorem one_gfMul (b poly : Byte) : gfMul 1 b poly = b := by
  rw [gfMul_eq_mulLoop]
  exact (mulLoop_power poly (k := 0) rfl b 0#8).trans (by simp)

theorem gfMul_comm (a b poly : Byte) : gfMul a b poly = gfMul b a poly := by
  simpa only [one_gfMul] using gfMul_right_comm 1 a b poly

theorem two_gfMul (a poly : Byte) : gfMul 0x02 a poly = xtime poly a := by
  have two : xtime poly 1 = 0x02 := xtime_power poly (k := 0) (by decide)
  rw [← two, xtime_gfMul, one_gfMul]

theorem eq_of_gfMul_eq_one {a b c poly : Byte} (hb : gfMul a b poly = 1) (hc : gfMul a c poly = 1) : c = b := by
  simpa only [hb, hc, one_gfMul] using gfMul_right_comm a b c poly

/-! ### The product of R101 and its reduction -/

theorem foldl_range'_eq_mulLoop (a : Byte) (x p : BitVec 16) (n k : Nat) :
    (List.range' k n).foldl (fun acc i => if a.getLsbD i then acc ^^^ (x <<< i) else acc) p =
      mulLoop (· <<< 1) n (x <<< k) (a >>> k) p := by
  induction n generalizing k p with
  | zero => rfl
  | succ n ih =>
    rw [List.range'_succ, List.foldl_cons, ih, mulLoop, ← BitVec.shiftLeft_add, ← BitVec.shiftRight_add]
    cases h : a.getLsbD k <;> simp [h]

theorem clmul_eq_mulLoop (a : Byte) (x : BitVec 16) : clmul a x = mulLoop (· <<< 1) 8 x a 0#16 := by
  rw [clmul, List.range_eq_range', foldl_range'_eq_mulLoop]
  simp

theorem clmul_xor (a a' : Byte) (x : BitVec 16) : clmul (a ^^^ a') x = clmul a x ^^^ clmul a' x := by
  rw [clmul_eq_mulLoop, clmul_eq_mulLoop, clmul_eq_mulLoop]
  exact mulLoop_xor_right (· <<< 1) 8 x a a' 0#16 0#16

theorem clmul_lowBit (c : Bool) (x : BitVec 16) :
    clmul (if c then 1#8 else 0#8) x = if c then x else 0#16 := by
  cases c <;> simp [clmul, List.range_succ]

theorem shiftLeft_ushiftRight_of_top {q : Byte} (top : q.getLsbD 7 = false) : (q <<< 1) >>> 1 = q := by
  refine BitVec.eq_of_getLsbD_eq fun i hi => ?_
  obtain rfl | hi : i = 7 ∨ i < 7 := by omega
  · simpa using top.symm
  · simp; omega

theorem clmul_shiftLeft {q : Byte} (top : q.getLsbD 7 = false) (x : BitVec 16) :
    clmul (q <<< 1) x = clmul q x <<< 1 :=
  calc clmul (q <<< 1) x
    _ = mulLoop (· <<< 1) 7 (x <<< 1) q 0#16 := by
      rw [clmul_eq_mulLoop, mulLoop, shiftLeft_ushiftRight_of_top top]
      simp
    _ = mulLoop (· <<< 1) 8 (x <<< 1) q 0#16 := (mulLoop_succ_of_top _ top ..).symm
    _ = clmul q x <<< 1 := by
      rw [clmul_eq_mulLoop]
      exact (map_mulLoop (f := (· <<< 1)) (BitVec.shiftLeft_xor_distrib · · 1) (fun _ => rfl) 8 x q 0#16).symm

/-- `x^8 + poly(x)` (R101). -/
def modulus (poly : Byte) : BitVec 16 := 0x100#16 ^^^ poly.setWidth 16

/-- A byte shifted in 16 bits: the coefficient that leaves the byte stands at `x^8`. -/
theorem setWidth_shiftLeft : ∀ r : Byte,
    r.setWidth 16 <<< 1 = (if r.getLsbD 7 then 0x100#16 else 0#16) ^^^ (r <<< 1).setWidth 16 := by
  decide +kernel

/-- Multiplication by `x` takes the modulus away where the degree would reach 8. -/
theorem setWidth_shiftLeft_eq_xtime (poly r : Byte) :
    r.setWidth 16 <<< 1 = (if r.getLsbD 7 then modulus poly else 0#16) ^^^ (xtime poly r).setWidth 16 := by
  rw [setWidth_shiftLeft, xtime, modulus, BitVec.setWidth_xor]
  cases r.getLsbD 7 with
  | false => simp
  | true => exact (xor_xor_xor_cancel ..).symm

/-- `y` differs from `r` by a multiple of `x^8 + poly(x)` whose cofactor has degree below `k`. -/
def ReducesTo (poly : Byte) (k : Nat) (y : BitVec 16) (r : Byte) : Prop :=
  ∃ q : Byte, (∀ i, k ≤ i → q.getLsbD i = false) ∧ y = clmul q (modulus poly) ^^^ r.setWidth 16

namespace ReducesTo

theorem of_setWidth (poly : Byte) (k : Nat) (r : Byte) : ReducesTo poly k (r.setWidth 16) r :=
  ⟨0#8, fun _ _ => BitVec.getLsbD_zero, BitVec.zero_xor.symm⟩

theorem mono {poly r : Byte} {k l : Nat} {y : BitVec 16} (h : ReducesTo poly k y r) (kl : k ≤ l) :
    ReducesTo poly l y r := by
  obtain ⟨q, deg, rfl⟩ := h
  exact ⟨q, fun i hi => deg i (Nat.le_trans kl hi), rfl⟩

theorem xor {poly r r' : Byte} {k : Nat} {y y' : BitVec 16} (h : ReducesTo poly k y r) (h' : ReducesTo poly k y' r') :
    ReducesTo poly k (y ^^^ y') (r ^^^ r') := by
  obtain ⟨q, deg, rfl⟩ := h
  obtain ⟨q', deg', rfl⟩ := h'
  refine ⟨q ^^^ q', fun i hi => by simp [deg i hi, deg' i hi], ?_⟩
  rw [clmul_xor, BitVec.setWidth_xor]
  ac_rfl

theorem timesX {poly r : Byte} {k : Nat} {y : BitVec 16} (h : ReducesTo poly k y r) (hk : k < 8) :
    ReducesTo poly (k + 1) (y <<< 1) (xtime poly r) := by
  obtain ⟨q, deg, rfl⟩ := h
  have top : q.getLsbD 7 = false := deg 7 (by omega)
  refine ⟨q <<< 1 ^^^ if r.getLsbD 7 then 1#8 else 0#8, fun i hi => ?_, ?_⟩
  · obtain ⟨j, rfl⟩ : ∃ j, i = j + 1 := ⟨i - 1, by omega⟩
    cases r.getLsbD 7 <;> simp [deg j (by omega)]
  · rw [BitVec.shiftLeft_xor_distrib, clmul_xor, clmul_shiftLeft top, clmul_lowBit,
      setWidth_shiftLeft_eq_xtime poly, BitVec.xor_assoc]

/-- The two loops side by side: what is added in a round is reduced in the second one only. -/
theorem mulLoop {poly r p' : Byte} {k n : Nat} {y p : BitVec 16} (hn : n + k ≤ 8) (factor : ReducesTo poly k y r)
    (product : ReducesTo poly 8 p p') (b : Byte) :
    ReducesTo poly 8 (mulLoop (· <<< 1) n y b p) (mulLoop (xtime poly) n r b p') := by
  induction n generalizing k y r b p p' with
  | zero => exact product
  | succ n ih =>
    refine ih (k := k + 1) (by omega) (factor.timesX (by omega)) (product.xor ?_) _
    cases b.getLsbD 0 with
    | false => exact of_setWidth poly 8 0#8
    | true => exact factor.mono (by omega)

end ReducesTo

/-- Settles O55: GF_MUL is commutative, so its loop can run over the bits of `a`, as the product's does. -/
theorem gfMulIsTheReducedProduct : Obligations.GfMulIsTheReducedProduct := by
  unfold Obligations.GfMulIsTheReducedProduct
  intro a b poly
  rw [gfMul_comm, gfMul_eq_mulLoop, clmul_eq_mulLoop]
  obtain ⟨q, -, eq⟩ := ReducesTo.mulLoop (n := 8) (Nat.le_refl 8) (.of_setWidth poly 0 b) (.of_setWidth poly 8 0#8) a
  exact ⟨q, eq⟩

end Sys2Proof.Machine
end

section
/-!
SUPPORT. The tables of 40_gf_sbox (R104 to R109). R108's formula can be undone, so SBOX itself gives the inverse of
every byte under GF_MUL with 0x1b (R103); that there is no second one holds for every `poly`.
-/
namespace Sys2Proof.Machine

/-- R108's formula, `y` the inverse of the index. -/
def sboxFormula (y : Byte) : Byte := y ^^^ rotl8 y 1 ^^^ rotl8 y 2 ^^^ rotl8 y 3 ^^^ rotl8 y 4 ^^^ 0x63

/-- `sboxFormula` undone. -/
def sboxFormulaInv (s : Byte) : Byte :=
  rotl8 (s ^^^ 0x63) 1 ^^^ rotl8 (s ^^^ 0x63) 3 ^^^ rotl8 (s ^^^ 0x63) 6

theorem sboxFormula_sboxFormulaInv : ∀ s : Byte, sboxFormula (sboxFormulaInv s) = s := by
  decide +kernel

theorem gfMul_sboxFormulaInv_sbox : ∀ a : Byte, a ≠ 0 → gfMul a (sboxFormulaInv (sbox a)) 0x1b = 0x01 := by
  decide +kernel

/-- Settles O56: the laws for every `poly`, and the inverse that SBOX gives. -/
theorem gfMulLaws : Obligations.GfMulLaws := by
  unfold Obligations.GfMulLaws
  refine ⟨(gfMul_comm · · 0x1b), (one_gfMul · 0x1b), gfMul_xor, two_gfMul, fun a nonzero => ?_⟩
  have inverse := gfMul_sboxFormulaInv_sbox a nonzero
  exact ⟨_, inverse, fun c hc => eq_of_gfMul_eq_one inverse hc⟩

theorem sbox_eq_sboxFormula_of_inverse {a y : Byte} (h : gfMul a y 0x1b = 0x01) : sbox a = sboxFormula y := by
  have nonzero : a ≠ 0 := by
    rintro rfl
    rw [zero_gfMul] at h
    exact absurd h (by decide)
  rw [eq_of_gfMul_eq_one (gfMul_sboxFormulaInv_sbox a nonzero) h, sboxFormula_sboxFormulaInv]

/-- The entries 0 and 11, unspecified in R109, are not among these. -/
theorem rcon_succ (j : Fin 12) (hj : 1 ≤ j.val ∧ j.val ≤ 9) : rcon ⟨j.val + 1, by omega⟩ = xtime 0x1b (rcon j) := by
  revert j
  decide +kernel

/-- Settles O58: an inverse is the one SBOX gives, and RCON doubles. -/
theorem tablesMatchTheirGenerators : Obligations.TablesMatchTheirGenerators := by
  unfold Obligations.TablesMatchTheirGenerators
  refine ⟨fun x y h => ?_, rfl, fun j hj => ?_⟩
  · obtain ⟨rfl, rfl⟩ | inverse := h
    · rfl
    · exact sbox_eq_sboxFormula_of_inverse inverse
  · rw [two_gfMul, rcon_succ j hj]

theorem invSbox_sbox : ∀ b : Byte, invSbox (sbox b) = b := by
  decide +kernel

theorem sbox_invSbox : ∀ b : Byte, sbox (invSbox b) = b := by
  decide +kernel

/-- Settles O57, from the 256 entries of both tables (R104, R105). -/
theorem tablesAreInverse : Obligations.TablesAreInverse := ⟨invSbox_sbox, sbox_invSbox⟩

end Sys2Proof.Machine
end

section
/-!
SUPPORT. The schedule's words and round key 0 as they are written and read (41_key_schedule R120 to R124), KEY_COPY and
KEY_WORD on every state, and the recurrence of KeyExpand.
-/
namespace Sys2Proof.Machine

/-! ### Round key 0 and the words after a write (R120) -/

theorem getElem_setRoundKey0_of_lt (r : Sched) (k : Block) (j : Fin 16) : (setRoundKey0 r k)[j.val] = k[j] := by
  simp [setRoundKey0]

theorem getElem_setRoundKey0_of_le (r : Sched) (k : Block) {j : Fin 176} (hj : 16 ≤ j.val) :
    (setRoundKey0 r k)[j] = r[j] := by
  simp [setRoundKey0, Nat.not_lt.2 hj]

theorem roundKey_setRoundKey0 (r : Sched) (k : Block) : roundKey (setRoundKey0 r k) 0 = k := by
  refine Vector.ext fun j hj => ?_
  simp [roundKey, setRoundKey0]

theorem getElem_setWord_same (r : Sched) (i : Fin 44) (w : KeyWord) {j : Nat} (hj : j < 4) :
    (setWord r i w)[4 * i.val + j] = w[j] := by
  have word : (4 * i.val + j) / 4 = i.val := by omega
  simp [setWord, word, Nat.mod_eq_of_lt hj]

theorem getElem_setWord_of_ne (r : Sched) (w : KeyWord) {i : Fin 44} {j : Fin 176} (h : j.val / 4 ≠ i.val) :
    (setWord r i w)[j] = r[j] := by
  simp [setWord, h]

theorem wordAt_setWord (r : Sched) (i : Fin 44) (w : KeyWord) : wordAt (setWord r i w) i = w := by
  refine Vector.ext fun j hj => ?_
  rw [wordAt, Vector.getElem_ofFn, getElem_setWord_same r i w hj]

/-! ### The bytes of the next word (R121) -/

theorem getElem_nextWord_of_mod_ne {i : Fin 44} (h : i.val % 4 ≠ 0) (p b : KeyWord) (j : Fin 4) :
    (nextWord i p b)[j.val] = p[j] ^^^ b[j] := by
  simp [nextWord, h]

theorem nextWord_of_mod_eq {i : Fin 44} (h : i.val % 4 = 0) (p b : KeyWord) :
    nextWord i p b =
      #v[sbox p[1] ^^^ rcon ⟨i.val / 4, by omega⟩ ^^^ b[0], sbox p[2] ^^^ b[1], sbox p[3] ^^^ b[2],
        sbox p[0] ^^^ b[3]] := by
  rw [nextWord, if_pos h]
  rfl

/-! ### KEY_COPY and KEY_WORD on every state (R123, R124) -/

theorem sees_readKeyBuf (s : State) : sees s.key s.written.key s.readKeyBuf.1 :=
  (coreRead_spec s .key 0 s.key s.written.key).1

theorem sees_readWord (s : State) (i : Fin 44) :
    sees (wordAt s.sched i) (wordWritten s.written.sched i) (s.readWord i).1 :=
  (coreRead_spec s .sched (4 * i.val) (wordAt s.sched i) (wordWritten s.written.sched i)).1

@[simp] theorem readWord_sched (s : State) (i : Fin 44) : (s.readWord i).2.sched = s.sched := rfl

@[simp] theorem readWord_written (s : State) (i : Fin 44) : (s.readWord i).2.written = s.written := rfl

/-- Reads, then a write of SCHED: nothing else changes but the recorded faults and the count of draws. -/
theorem putSched_frame {s r : State} (h : r = { s with faults := r.faults, draws := r.draws }) (k : Sched)
    (w : Vector Bool 176) :
    r.putSched k w =
      { s with
        sched := k, written := { s.written with sched := w }, faults := r.faults, draws := r.draws } :=
  congrArg (·.putSched k w) h

/-- The `written` bits of SCHED once the bytes `p` holds of are written (R36). -/
def markWritten (w : Vector Bool 176) (p : Nat → Prop) [DecidablePred p] : Vector Bool 176 :=
  Vector.ofFn fun j => if p j.val then true else w[j]

theorem getElem_markWritten_of_pos (w : Vector Bool 176) {p : Nat → Prop} [DecidablePred p] {j : Nat} (hj : j < 176)
    (h : p j) : (markWritten w p)[j] = true := by
  simp [markWritten, h]

theorem getElem_markWritten_of_neg (w : Vector Bool 176) {p : Nat → Prop} [DecidablePred p] {j : Fin 176}
    (h : ¬p j.val) : (markWritten w p)[j] = w[j] := by
  simp [markWritten, h]

theorem keyCopy_sched (s : State) : s.keyCopy.sched = setRoundKey0 s.sched s.readKeyBuf.1 := rfl

theorem keyCopy_written_sched (s : State) : s.keyCopy.written.sched = markWritten s.written.sched (· < 16) := rfl

theorem keyCopy_frame (s : State) :
    s.keyCopy =
      { s with
        sched := s.keyCopy.sched, written := { s.written with sched := s.keyCopy.written.sched }
        faults := s.faults ++ lostReads .key 0 s.written.key, draws := s.keyCopy.draws } := by
  rw [← keyCopy_faults]
  exact putSched_frame (r := s.readKeyBuf.2) rfl _ _

/-- What KEY_WORD i reads of word i-4 (R124). -/
def State.backWord (s : State) (i : Fin 44) : KeyWord := (s.readWord (wordBefore i 4)).1

/-- What KEY_WORD i reads of word i-1, after word i-4 (R124). -/
def State.prevWord (s : State) (i : Fin 44) : KeyWord :=
  ((s.readWord (wordBefore i 4)).2.readWord (wordBefore i 1)).1

theorem sees_backWord (s : State) (i : Fin 44) :
    sees (wordAt s.sched (wordBefore i 4)) (wordWritten s.written.sched (wordBefore i 4)) (s.backWord i) :=
  sees_readWord s (wordBefore i 4)

/-- Reading word i-4 leaves SCHED and its `written` bits. -/
theorem sees_prevWord (s : State) (i : Fin 44) :
    sees (wordAt s.sched (wordBefore i 1)) (wordWritten s.written.sched (wordBefore i 1)) (s.prevWord i) :=
  sees_readWord (s.readWord (wordBefore i 4)).2 (wordBefore i 1)

theorem keyWord_sched (s : State) (i : Fin 44) :
    (s.keyWord i).sched = setWord s.sched i (nextWord i (s.prevWord i) (s.backWord i)) := by
  simp only [State.keyWord, State.putSched_sched, readWord_sched, State.prevWord, State.backWord]

theorem keyWord_written_sched (s : State) (i : Fin 44) :
    (s.keyWord i).written.sched = markWritten s.written.sched (· / 4 = i.val) := by
  simp only [State.keyWord, State.putSched_written, readWord_written, markWritten]

theorem keyWord_frame (s : State) (i : Fin 44) :
    s.keyWord i =
      { s with
        sched := (s.keyWord i).sched, written := { s.written with sched := (s.keyWord i).written.sched }
        faults := s.faults ++ s.recorded (.keyWord i), draws := (s.keyWord i).draws } := by
  rw [← keyWord_faults]
  exact putSched_frame (r := ((s.readWord (wordBefore i 4)).2.readWord (wordBefore i 1)).2) rfl _ _

/-- Settles O33: KEY_COPY copies what it reads of KEY. -/
theorem keyCopyCopiesTheKey : Obligations.KeyCopyCopiesTheKey := by
  unfold Obligations.KeyCopyCopiesTheKey
  intro s
  refine ⟨s.keyCopy, s.readKeyBuf.1, rfl, sees_readKeyBuf s, ?_, ?_, keyCopy_frame s⟩ <;>
    rw [keyCopy_sched, keyCopy_written_sched]
  · exact fun j => ⟨getElem_setRoundKey0_of_lt _ _ j, getElem_markWritten_of_pos _ _ j.isLt⟩
  · exact fun j hj => ⟨getElem_setRoundKey0_of_le _ _ hj, getElem_markWritten_of_neg _ (Nat.not_lt.2 hj)⟩

/-- The four bytes KEY_WORD i writes (R124). -/
theorem getElem_keyWord_sched (s : State) (i : Fin 44) {j : Nat} (hj : j < 4) :
    (s.keyWord i).sched[4 * i.val + j] = (nextWord i (s.prevWord i) (s.backWord i))[j] := by
  rw [keyWord_sched, getElem_setWord_same s.sched i _ hj]

/-- Settles O34: KEY_WORD writes the next word after what it reads of the two words before. -/
theorem keyWordComputesOneWord : Obligations.KeyWordComputesOneWord := by
  unfold Obligations.KeyWordComputesOneWord
  intro s i
  refine ⟨fun h => ⟨s.keyWord i, s.prevWord i, s.backWord i, if_pos h, sees_prevWord s i, sees_backWord s i,
    fun other j => ?_, fun multiple => ?_, fun j => ?_, fun j hj => ?_, keyWord_frame s i⟩,
    fun low => if_neg (Nat.not_le.2 low)⟩
  · exact (getElem_keyWord_sched s i j.isLt).trans (getElem_nextWord_of_mod_ne other _ _ j)
  · have word {j : Nat} (hj : j < 4) := getElem_keyWord_sched s i hj
    simp only [nextWord_of_mod_eq multiple] at word
    exact ⟨word (j := 0) (by decide), word (j := 1) (by decide), word (j := 2) (by decide), word (j := 3) (by decide)⟩
  · rw [keyWord_written_sched]
    exact getElem_markWritten_of_pos _ _ (by omega)
  · rw [keyWord_sched, keyWord_written_sched]
    exact ⟨getElem_setWord_of_ne s.sched _ hj, getElem_markWritten_of_neg s.written.sched hj⟩

/-! ### The recurrence (R121) -/

theorem agreeBelow_expandWord (r : Sched) {n : Nat} {i : Fin 44} (hn : n ≤ 4 * i.val) :
    AgreeBelow n (expandWord r i) r :=
  fun j hj => getElem_setWord_of_ne r _ (by omega)

theorem AgreeBelow.roundKey0_eq {r r' : Sched} (h : AgreeBelow 16 r r') : roundKey r 0 = roundKey r' 0 := by
  refine Vector.ext fun j hj => ?_
  simpa [roundKey] using h ⟨j, by omega⟩ hj

/-- The words from `n` on leave the schedule below them. -/
theorem agreeBelow_foldl_expandWord {m n : Nat} (hn : n + m = 44) (r : Sched) :
    AgreeBelow (4 * n) ((wordsFrom n).foldl expandWord r) r := by
  induction m generalizing n r with
  | zero =>
    obtain rfl : n = 44 := hn
    exact fun _ _ => rfl
  | succ m ih =>
    rw [wordsFrom_of_lt (by omega), List.foldl_cons]
    intro j hj
    exact (ih (n := n + 1) (by omega) _ j (by omega)).trans (agreeBelow_expandWord r (Nat.le_refl _) j hj)

/-- Word `i` of the schedule is the next word after the two words before it. -/
def Recurs (r : Sched) (i : Fin 44) : Prop :=
  wordAt r i = nextWord i (wordAt r (wordBefore i 1)) (wordAt r (wordBefore i 4))

/-- A schedule that holds what the loop left up to word `i` has the recurrence at word `i`. -/
theorem Recurs.of_agreeBelow {r r' : Sched} {i : Fin 44} (h4 : 4 ≤ i.val)
    (h : AgreeBelow (4 * (i.val + 1)) r' (expandWord r i)) : Recurs r' i := by
  have below {d : Nat} (hd : 1 ≤ d ∧ d ≤ 4) : wordAt r' (wordBefore i d) = wordAt r (wordBefore i d) :=
    calc wordAt r' (wordBefore i d)
      _ = wordAt (expandWord r i) (wordBefore i d) := h.wordAt_eq (by simp only [wordBefore]; omega)
      _ = wordAt r (wordBefore i d) :=
        (agreeBelow_expandWord r (Nat.le_refl _)).wordAt_eq (by simp only [wordBefore]; omega)
  rw [Recurs, h.wordAt_eq (Nat.le_refl _), below (by decide), below (by decide), expandWord, wordAt_setWord]

/-- The loop from word `n` on leaves the recurrence at every word from `n` on. -/
theorem recurs_foldl_expandWord {m n : Nat} (hn : n + m = 44) (h4 : 4 ≤ n) (r : Sched) {i : Fin 44}
    (hi : n ≤ i.val) : Recurs ((wordsFrom n).foldl expandWord r) i := by
  induction m generalizing n r with
  | zero => omega
  | succ m ih =>
    rw [wordsFrom_of_lt (by omega), List.foldl_cons]
    obtain rfl | later := Nat.eq_or_lt_of_le hi
    · exact .of_agreeBelow h4 (agreeBelow_foldl_expandWord (m := m) (by omega) _)
    · exact ih (by omega) (by omega) _ later

/-- Settles O35: the loop leaves round key 0, and no word changes after its own iteration. -/
theorem keyExpandSatisfiesTheRecurrence : Obligations.KeyExpandSatisfiesTheRecurrence := by
  unfold Obligations.KeyExpandSatisfiesTheRecurrence
  intro k
  refine ⟨?_, fun i h4 => recurs_foldl_expandWord (m := 40) rfl (Nat.le_refl 4) _ h4⟩
  have first : AgreeBelow 16 (keyExpand k) _ := agreeBelow_foldl_expandWord (m := 40) (n := 4) rfl _
  rw [first.roundKey0_eq, roundKey_setRoundKey0]

end Sys2Proof.Machine
end

section
/-!
SUPPORT. The lists commands start with (44_countermeasures R186), and what they are without hardening (R151 to R154).
-/
namespace Sys2Proof.Machine

namespace Unhardened

variable {b : Config.BuildFlags}

theorem flatMap_hardRound_eq (plain : Unhardened b) (kind : RoundKind) (x : Target) (l : List (Fin 11)) :
    l.flatMap (hardRound b kind x) = l.map fun n => roundWord kind x (.round n) := by
  rw [funext (plain.hardRound_eq kind x), List.map_eq_flatMap]

/-- EncBody without hardening (R151). -/
theorem encBody_eq (plain : Unhardened b) (x : Target) :
    encBody b x = [Instr.addRoundKey x (.round 0)] ++ innerRounds.map (fun n => Instr.round x (.round n)) ++
      [Instr.lastRound x (.round 10)] := by
  rw [encBody, plain.padPass_eq, plain.flatMap_hardRound_eq, plain.hardRound_eq]
  rfl

/-- DecBody without hardening (R152). -/
theorem decBody_eq (plain : Unhardened b) (x : Target) :
    decBody b x = [Instr.firstInvRound x (.round 10)] ++
      innerRounds.reverse.map (fun n => Instr.invRound x (.round n)) ++ [Instr.addRoundKey x (.round 0)] := by
  rw [decBody, plain.padPass_eq, plain.flatMap_hardRound_eq, plain.hardRound_eq]
  rfl

end Unhardened

/-- Settles O18: the bodies are R186's compositions, which come to R151 to R154's lists without hardening. -/
theorem baseCommandLists : Obligations.BaseCommandLists := by
  unfold Obligations.BaseCommandLists
  refine ⟨fun c rdelay dummy antidfa => ?_, fun c x => ⟨rfl, rfl, rfl, rfl⟩, fun c cmd hc => ?_, fun c => ⟨rfl, rfl⟩⟩
  · have plain : Unhardened c := ⟨rdelay, dummy, antidfa⟩
    have enc : commandSteps c .ecbEnc = encBody c .state := plain.commandSteps_eq rfl
    have dec : commandSteps c .ecbDec = decBody c .state := plain.commandSteps_eq rfl
    refine ⟨rfl, enc.trans (plain.encBody_eq .state), dec.trans (plain.decBody_eq .state), ?_, ?_, rfl⟩
    · rw [enc, plain.commandSteps_eq rfl, cipherBody, plain.padPass_eq]
      rfl
    · rw [dec, plain.commandSteps_eq rfl, cipherBody, plain.padPass_eq]
  · cases cmd with
    | expandKey | seed => cases hc
    | ecbEnc | ecbDec | cbcEnc | cbcDec => rfl

end Sys2Proof.Machine
end

section
/-!
SUPPORT. The passes on every state (42_round_transform R130 to R136): what a target holds afterwards, and that nothing
else changes but the recorded faults and the count of draws.
-/
namespace Sys2Proof.Machine

/-! ### Bytes by row and column (R11) -/

theorem getElem_shiftRows (x : Block) (r c : Fin 4) :
    (shiftRows x)[4 * c.val + r.val] = x[4 * ((c.val + r.val) % 4) + r.val] := by
  have column : (4 * c.val + r.val) / 4 = c.val := by omega
  have row : (4 * c.val + r.val) % 4 = r.val := by omega
  simp only [shiftRows, Vector.getElem_ofFn, column, row]

theorem getElem_invShiftRows (x : Block) (r c : Fin 4) :
    (invShiftRows x)[4 * c.val + r.val] = x[4 * ((c.val + 4 - r.val) % 4) + r.val] := by
  have column : (4 * c.val + r.val) / 4 = c.val := by omega
  have row : (4 * c.val + r.val) % 4 = r.val := by omega
  simp only [invShiftRows, Vector.getElem_ofFn, column, row]

/-- Row `r` of column `c` is the function of the four bytes of that column (R134, R135). -/
theorem getElem_onColumns (f : Byte → Byte → Byte → Byte → Nat → Byte) (x : Block) (c : Fin 4) {r : Nat} (hr : r < 4) :
    (onColumns f x)[4 * c.val + r] =
      f x[4 * c.val] x[4 * c.val + 1] x[4 * c.val + 2] x[4 * c.val + 3] r := by
  have column : (4 * c.val + r) / 4 = c.val := by omega
  have row : (4 * c.val + r) % 4 = r := by omega
  simp only [onColumns, Vector.getElem_ofFn, column, row]

/-! ### A pass on a target -/

/-- What a pass does on any state (`transform_spec`), the frame stated through what the target then holds. -/
theorem transform_effect (s : State) (x : Target) (f : Block → Block) :
    ∃ a, s.seesTarget x a ∧ (s.transform x f).bytesOf x = f a ∧
      s.transform x f =
        { s.writeTarget x ((s.transform x f).bytesOf x) with
          faults := s.faults ++ s.targetFaults x, draws := (s.transform x f).draws } := by
  obtain ⟨a, sees, bytes, frame⟩ := transform_spec s x f
  exact ⟨a, sees, bytes, bytes.symm ▸ frame⟩

/-- Settles O24: the pass applies `subBytes`, which looks up every byte. -/
theorem subBytesSubstitutesEveryByte : Obligations.SubBytesSubstitutesEveryByte := by
  intro s x
  obtain ⟨a, sees, bytes, frame⟩ := transform_effect s x subBytes
  exact ⟨_, a, rfl, sees, fun j => by simp [bytes, subBytes], frame⟩

/-- Settles O25: the pass applies `invSubBytes`, which looks up every byte. -/
theorem invSubBytesSubstitutesEveryByte : Obligations.InvSubBytesSubstitutesEveryByte := by
  intro s x
  obtain ⟨a, sees, bytes, frame⟩ := transform_effect s x invSubBytes
  exact ⟨_, a, rfl, sees, fun j => by simp [bytes, invSubBytes], frame⟩

/-- Settles O26: the pass applies `shiftRows`, read row by row. -/
theorem shiftRowsRotatesRowsLeft : Obligations.ShiftRowsRotatesRowsLeft := by
  intro s x
  obtain ⟨a, sees, bytes, frame⟩ := transform_effect s x shiftRows
  refine ⟨_, a, rfl, sees, fun r c => ?_, frame⟩
  rw [← getElem_shiftRows a r c, ← bytes]

/-- Settles O27: the pass applies `invShiftRows`, read row by row. -/
theorem invShiftRowsRotatesRowsBack : Obligations.InvShiftRowsRotatesRowsBack := by
  intro s x
  obtain ⟨a, sees, bytes, frame⟩ := transform_effect s x invShiftRows
  refine ⟨_, a, rfl, sees, fun r c => ?_, frame⟩
  rw [← getElem_invShiftRows a r c, ← bytes]

/-- Settles O28: the pass applies `mixColumns`, read column by column. -/
theorem mixColumnsMultipliesColumns : Obligations.MixColumnsMultipliesColumns := by
  intro s x
  obtain ⟨a, sees, bytes, frame⟩ := transform_effect s x mixColumns
  have row := getElem_onColumns mixByte a
  refine ⟨_, a, rfl, sees, fun c => ?_, frame⟩
  simp only [bytes]
  exact ⟨row c (r := 0) (by decide), row c (r := 1) (by decide), row c (r := 2) (by decide), row c (r := 3) (by decide)⟩

/-- Settles O29: the pass applies `invMixColumns`, read column by column. -/
theorem invMixColumnsMultipliesColumns : Obligations.InvMixColumnsMultipliesColumns := by
  intro s x
  obtain ⟨a, sees, bytes, frame⟩ := transform_effect s x invMixColumns
  have row := getElem_onColumns invMixByte a
  refine ⟨_, a, rfl, sees, fun c => ?_, frame⟩
  simp only [bytes]
  exact ⟨row c (r := 0) (by decide), row c (r := 1) (by decide), row c (r := 2) (by decide), row c (r := 3) (by decide)⟩

/-! ### A pass with a key (R136) -/

/-- Reading a target leaves what reading a key sees. -/
theorem seesKey_readTarget (s : State) (x : Target) (k : KeySel) :
    s.seesKey k ((s.readTarget x).2.readKey k).1 := by
  have same : (s.readTarget x).2.seesKey k = s.seesKey k := by
    rw [(readTarget_spec s x).2]
    cases k <;> rfl
  exact same ▸ (readKey_spec (s.readTarget x).2 k).1

/-- The key's faults come after the target's (R205), and nothing else changes. -/
theorem addRoundKey_frame (s : State) (x : Target) (k : KeySel) :
    (s.combine x fun t => t.readKey k) =
      { s.writeTarget x ((s.combine x fun t => t.readKey k).bytesOf x) with
        faults := s.faults ++ s.targetFaults x ++ s.keyFaults k
        draws := (s.combine x fun t => t.readKey k).draws } := by
  have key : ((s.readTarget x).2.readKey k).2 =
      { s with
        faults := s.faults ++ s.targetFaults x ++ s.keyFaults k
        draws := ((s.readTarget x).2.readKey k).2.draws } := by
    rw [(readKey_spec _ k).2, (readTarget_spec s x).2]
    cases k <;> rfl
  simp only [State.combine, bytesOf_writeTarget]
  rw [key]
  cases x <;> rfl

/-- Settles O30: the pass adds what it sees of the key to what it sees of the target. -/
theorem addRoundKeyAddsTheKey : Obligations.AddRoundKeyAddsTheKey := by
  intro s x k
  refine ⟨_, (s.readTarget x).1, ((s.readTarget x).2.readKey k).1, rfl, (readTarget_spec s x).1,
    seesKey_readTarget s x k, fun j => ?_, addRoundKey_frame s x k⟩
  simp [State.combine, xorBlock]

end Sys2Proof.Machine
end

section
/-!
SUPPORT. The laws of the passes (R137). The two column matrices are inverse over GF(2^8): a product of rows with a
column is regrouped by the entries of the column, and the coefficients that come out are those of the unit matrix.
-/
namespace Sys2Proof.Machine

/-! ### Sums of products with the reduction byte 0x1b (R102, R134) -/

/-- The row `m` of a matrix times the column `v`. -/
def rowTimes (m v : Fin 4 → Byte) : Byte :=
  gfm (m 0) (v 0) ^^^ gfm (m 1) (v 1) ^^^ gfm (m 2) (v 2) ^^^ gfm (m 3) (v 3)

theorem one_gfm (b : Byte) : gfm 1#8 b = b := one_gfMul b 0x1b

theorem zero_gfm (b : Byte) : gfm 0#8 b = 0#8 := zero_gfMul b 0x1b

theorem gfm_assoc (a b c : Byte) : gfm (gfm a b) c = gfm a (gfm b c) := by
  calc gfm (gfm a b) c
    _ = gfm (gfm b a) c := congrArg (gfm · c) (gfMul_comm a b 0x1b)
    _ = gfm (gfm b c) a := gfMul_right_comm b a c 0x1b
    _ = gfm a (gfm b c) := gfMul_comm _ _ 0x1b

theorem gfm_rowTimes (a : Byte) (m v : Fin 4 → Byte) : gfm a (rowTimes m v) = rowTimes (fun j => gfm a (m j)) v := by
  simp only [rowTimes, gfm_assoc]
  simp only [gfm, gfMul_xor]

theorem rowTimes_xor (m m' v : Fin 4 → Byte) :
    rowTimes m v ^^^ rowTimes m' v = rowTimes (fun j => m j ^^^ m' j) v := by
  simp only [rowTimes, gfm, xor_gfMul]
  ac_rfl

/-- A row times a product is the product of the row with the matrix, times the column. -/
theorem rowTimes_rowTimes (m : Fin 4 → Byte) (M : Fin 4 → Fin 4 → Byte) (v : Fin 4 → Byte) :
    rowTimes m (fun i => rowTimes (M i) v) = rowTimes (fun j => rowTimes m fun i => M i j) v := by
  calc rowTimes m (fun i => rowTimes (M i) v)
    _ = gfm (m 0) (rowTimes (M 0) v) ^^^ gfm (m 1) (rowTimes (M 1) v) ^^^ gfm (m 2) (rowTimes (M 2) v) ^^^
        gfm (m 3) (rowTimes (M 3) v) := rfl
    _ = rowTimes (fun j => rowTimes m fun i => M i j) v := by
      simp only [gfm_rowTimes, rowTimes_xor]
      rfl

/-- The four rows, one by one. -/
theorem forall_row (P : Fin 4 → Prop) (h0 : P 0) (h1 : P 1) (h2 : P 2) (h3 : P 3) : ∀ r, P r
  | 0 => h0
  | 1 => h1
  | 2 => h2
  | 3 => h3

/-- A row of the unit matrix picks an entry of the column. -/
theorem rowTimes_unit (r : Fin 4) (v : Fin 4 → Byte) : rowTimes (fun j => if j = r then 1 else 0) v = v r := by
  refine forall_row (fun r => rowTimes (fun j => if j = r then 1 else 0) v = v r) ?_ ?_ ?_ ?_ r <;>
    simp [rowTimes, one_gfm, zero_gfm]

/-! ### The two matrices (R134, R135) -/

/-- A row of a matrix, by its four entries. -/
def rowOf (a b c d : Byte) : Fin 4 → Byte
  | 0 => a
  | 1 => b
  | 2 => c
  | 3 => d

theorem rowTimes_rowOf (a b c d : Byte) (v : Fin 4 → Byte) :
    rowTimes (rowOf a b c d) v = gfm a (v 0) ^^^ gfm b (v 1) ^^^ gfm c (v 2) ^^^ gfm d (v 3) := rfl

/-- The matrix of MIX_COLUMNS (R134). -/
def mixMatrix : Fin 4 → Fin 4 → Byte
  | 0 => rowOf 0x02#8 0x03#8 0x01#8 0x01#8
  | 1 => rowOf 0x01#8 0x02#8 0x03#8 0x01#8
  | 2 => rowOf 0x01#8 0x01#8 0x02#8 0x03#8
  | 3 => rowOf 0x03#8 0x01#8 0x01#8 0x02#8

/-- The matrix of INV_MIX_COLUMNS (R135). -/
def invMixMatrix : Fin 4 → Fin 4 → Byte
  | 0 => rowOf 0x0e#8 0x0b#8 0x0d#8 0x09#8
  | 1 => rowOf 0x09#8 0x0e#8 0x0b#8 0x0d#8
  | 2 => rowOf 0x0d#8 0x09#8 0x0e#8 0x0b#8
  | 3 => rowOf 0x0b#8 0x0d#8 0x09#8 0x0e#8

/-- `f`, row by row, is the product with the matrix `M`. -/
def Multiplies (f : Byte → Byte → Byte → Byte → Nat → Byte) (M : Fin 4 → Fin 4 → Byte) : Prop :=
  ∀ (v : Fin 4 → Byte) (r : Fin 4), f (v 0) (v 1) (v 2) (v 3) r.val = rowTimes (M r) v

theorem mixByte_multiplies : Multiplies mixByte mixMatrix := by
  intro v
  refine forall_row _ ?_ ?_ ?_ ?_ <;> simp only [mixMatrix, rowTimes_rowOf, one_gfm] <;> rfl

theorem invMixByte_multiplies : Multiplies invMixByte invMixMatrix := by
  intro v
  exact forall_row _ rfl rfl rfl rfl

/-- Row `r` of column `c` (R11). -/
def columnOf (x : Block) (c : Fin 4) : Fin 4 → Byte := fun r => x[4 * c.val + r.val]

theorem eq_of_columnOf_eq {x y : Block} (h : ∀ c r, columnOf x c r = columnOf y c r) : x = y := by
  refine Vector.ext fun j hj => ?_
  simpa only [columnOf, Nat.div_add_mod] using h ⟨j / 4, by omega⟩ ⟨j % 4, by omega⟩

theorem columnOf_onColumns {f : Byte → Byte → Byte → Byte → Nat → Byte} {M : Fin 4 → Fin 4 → Byte}
    (product : Multiplies f M) (x : Block) (c : Fin 4) :
    columnOf (onColumns f x) c = fun r => rowTimes (M r) (columnOf x c) :=
  funext fun r => (getElem_onColumns f x c r.isLt).trans (product (columnOf x c) r)

/-- Matrices whose product is the unit matrix undo each other on every column. -/
theorem onColumns_onColumns_of_unit {f g : Byte → Byte → Byte → Byte → Nat → Byte} {M N : Fin 4 → Fin 4 → Byte}
    (hf : Multiplies f M) (hg : Multiplies g N)
    (unit : ∀ r j, (rowTimes (M r) fun i => N i j) = if j = r then 1 else 0) (x : Block) :
    onColumns f (onColumns g x) = x := by
  refine eq_of_columnOf_eq fun c r => ?_
  simp only [columnOf_onColumns hf, columnOf_onColumns hg, rowTimes_rowTimes, unit, rowTimes_unit]

/-! ### The inverse pairs (R137) -/

theorem invMixColumns_mixColumns (x : Block) : invMixColumns (mixColumns x) = x :=
  onColumns_onColumns_of_unit invMixByte_multiplies mixByte_multiplies (by decide) x

theorem mixColumns_invMixColumns (x : Block) : mixColumns (invMixColumns x) = x :=
  onColumns_onColumns_of_unit mixByte_multiplies invMixByte_multiplies (by decide) x

theorem invSubBytes_subBytes (x : Block) : invSubBytes (subBytes x) = x := by
  refine Vector.ext fun j hj => ?_
  simp [invSubBytes, subBytes, invSbox_sbox]

theorem subBytes_invSubBytes (x : Block) : subBytes (invSubBytes x) = x := by
  refine Vector.ext fun j hj => ?_
  simp [invSubBytes, subBytes, sbox_invSbox]

/-- Row `r` is rotated by `r` places and back. -/
theorem invShiftRows_shiftRows (x : Block) : invShiftRows (shiftRows x) = x := by
  refine eq_of_columnOf_eq fun c r => ?_
  have back : ((c.val + 4 - r.val) % 4 + r.val) % 4 = c.val := by omega
  have shifted := getElem_shiftRows x r ⟨(c.val + 4 - r.val) % 4, by omega⟩
  simp only [back] at shifted
  exact (getElem_invShiftRows (shiftRows x) r c).trans shifted

theorem shiftRows_invShiftRows (x : Block) : shiftRows (invShiftRows x) = x := by
  refine eq_of_columnOf_eq fun c r => ?_
  have back : ((c.val + r.val) % 4 + 4 - r.val) % 4 = c.val := by omega
  have shifted := getElem_invShiftRows x r ⟨(c.val + r.val) % 4, by omega⟩
  simp only [back] at shifted
  exact (getElem_shiftRows (invShiftRows x) r c).trans shifted

theorem xorBlock_xorBlock (x k : Block) : xorBlock (xorBlock x k) k = x := by
  refine Vector.ext fun j hj => ?_
  simp only [xorBlock, Vector.getElem_ofFn, Fin.getElem_fin, BitVec.xor_assoc, BitVec.xor_self, BitVec.xor_zero]

/-- Settles O59: the inverse pairs come from the tables, the rotations and the matrices; a substitution acts on each
byte by itself, so it commutes with a rotation of the rows. -/
theorem passLaws : Obligations.PassLaws := by
  refine ⟨fun x => ⟨invSubBytes_subBytes x, subBytes_invSubBytes x⟩,
    fun x => ⟨invShiftRows_shiftRows x, shiftRows_invShiftRows x⟩,
    fun x => ⟨invMixColumns_mixColumns x, mixColumns_invMixColumns x⟩, xorBlock_xorBlock, fun x => ?_, fun x => ?_⟩
  · refine Vector.ext fun j hj => ?_
    simp [subBytes, shiftRows]
  · refine Vector.ext fun j hj => ?_
    simp [invSubBytes, invShiftRows]

end Sys2Proof.Machine
end

section
/-!
SUPPORT. What a difference in one operand comes to in the dual computation (R181, R183): every entry between the
snapshot and the comparison keeps a difference of its target, and makes one where its own operand differs, since every
pass is injective in both operands (R137).
-/
namespace Sys2Proof.Machine

/-! ### The passes are injective (R137) -/

theorem subBytes_injective : Function.Injective subBytes := Function.LeftInverse.injective invSubBytes_subBytes

theorem invSubBytes_injective : Function.Injective invSubBytes := Function.LeftInverse.injective subBytes_invSubBytes

theorem shiftRows_injective : Function.Injective shiftRows := Function.LeftInverse.injective invShiftRows_shiftRows

theorem invShiftRows_injective : Function.Injective invShiftRows :=
  Function.LeftInverse.injective shiftRows_invShiftRows

theorem mixColumns_injective : Function.Injective mixColumns := Function.LeftInverse.injective invMixColumns_mixColumns

theorem invMixColumns_injective : Function.Injective invMixColumns :=
  Function.LeftInverse.injective mixColumns_invMixColumns

theorem xorBlock_comm (x k : Block) : xorBlock x k = xorBlock k x := by
  refine Vector.ext fun j hj => ?_
  simp [xorBlock, BitVec.xor_comm]

/-- A function of a block and a second operand, injective in each. -/
structure BiInjective (f : Block → Block → Block) : Prop where
  block : ∀ k, Function.Injective (f · k)
  operand : ∀ x, Function.Injective (f x)

theorem xorBlock_biInjective : BiInjective xorBlock where
  block k := Function.LeftInverse.injective (g := (xorBlock · k)) (xorBlock_xorBlock · k)
  operand x := Function.LeftInverse.injective (g := (xorBlock · x)) fun k =>
    (congrArg (xorBlock · x) (xorBlock_comm x k)).trans (xorBlock_xorBlock k x)

namespace BiInjective

variable {f : Block → Block → Block} {g : Block → Block}

theorem before (h : BiInjective f) (hg : Function.Injective g) : BiInjective fun x k => f (g x) k :=
  ⟨fun k => (h.block k).comp hg, fun x => h.operand (g x)⟩

theorem after (h : BiInjective f) (hg : Function.Injective g) : BiInjective fun x k => g (f x k) :=
  ⟨fun k => hg.comp (h.block k), fun x => hg.comp (h.operand x)⟩

end BiInjective

/-- The four round kinds add the key between injective passes (R140 to R143). Each composition is built before it is compared
with the goal, since unifying step by step would unfold the passes. -/
theorem kindFn_biInjective (kind : RoundKind) : BiInjective (kindFn kind) := by
  have add := xorBlock_biInjective
  cases kind with
  | round =>
    have h := ((add.before mixColumns_injective).before shiftRows_injective).before subBytes_injective
    exact h
  | lastRound =>
    have h := (add.before shiftRows_injective).before subBytes_injective
    exact h
  | firstInvRound =>
    have h := (add.after invShiftRows_injective).after invSubBytes_injective
    exact h
  | invRound =>
    have h := ((add.after invMixColumns_injective).after invShiftRows_injective).after invSubBytes_injective
    exact h

/-! ### A target before and after an entry -/

/-- The bytes of a target; SCR_STATE is the decoys' (R175) and no part of `Work`. -/
def Work.bytes (w : Work) : Target → Block
  | .state => w.state
  | .dfaCopy => w.copy
  | .scrState => zeroBlock

theorem Work.compare_of_ne {w : Work} (h : w.bytes .state ≠ w.bytes .dfaCopy) :
    w.compare = { w with state := zeroBlock, mismatch := w.mismatch + 1 } := if_neg h

theorem Work.compare_of_eq {w : Work} (h : w.bytes .state = w.bytes .dfaCopy) : w.compare = w := if_pos h

/-- The round key that byte `p` of SCHED lies in (R25). -/
def keyOf (p : Fin 176) : Fin 11 := ⟨p.val / 16, by omega⟩

/-- An entry that neither takes the copy nor compares it, as those a body and its expansions hold (R181). -/
def inBody : Instr → Bool
  | .dfaSnapshot | .dfaCompare | .dual => false
  | _ => true

theorem readsSched_roundWord {x : Target} {p : Fin 176} (kind : RoundKind) (y : Target) (k : KeySel) :
    readsSched x p (roundWord kind y k) = readsSched x p (.addRoundKey y k) := by
  cases kind <;> cases k <;> rfl

/-- What the entry reads for target `x` besides `x`, a round key or IV, is the same in both pairs of inputs. -/
structure SameOperand (x : Target) (r r' : Sched) (iv iv' : Block) (u : Instr) : Prop where
  key : ∀ p, readsSched x p u = true → roundKey r (keyOf p) = roundKey r' (keyOf p)
  iv : u = .xorIv x → iv = iv'

theorem SameOperand.refl (x : Target) (r : Sched) (iv : Block) (u : Instr) : SameOperand x r r iv iv u :=
  ⟨fun _ _ => rfl, fun _ => rfl⟩

namespace Work

variable {x y : Target} {r r' : Sched} {k : KeySel} {f : Block → Block → Block} {w w' : Work}

theorem on_mismatch (g : Block → Block) : (w.on y g).mismatch = w.mismatch := by
  cases y <;> rfl

theorem keyed_mismatch : (w.keyed r y k f).mismatch = w.mismatch := by
  cases k with
  | round n => exact on_mismatch fun b => f b (roundKey r n)
  | scratch => rfl

theorem bytes_on_of_ne (g : Block → Block) (h : y ≠ x) : (w.on y g).bytes x = w.bytes x := by
  cases y with
  | state => cases x with
    | state => exact absurd rfl h
    | dfaCopy | scrState => rfl
  | dfaCopy => cases x with
    | dfaCopy => exact absurd rfl h
    | state | scrState => rfl
  | scrState => rfl

theorem bytes_on_iff {g g' : Block → Block} (h : y = x → ∀ a a', g a = g' a' ↔ a = a') :
    (w.on y g).bytes x = (w'.on y g').bytes x ↔ w.bytes x = w'.bytes x := by
  by_cases hy : y = x
  · subst hy
    cases y with
    | state | dfaCopy => exact h rfl _ _
    | scrState => exact Iff.rfl
  · rw [bytes_on_of_ne g hy, bytes_on_of_ne g' hy]

theorem bytes_keyed_iff (hf : BiInjective f)
    (same : ∀ p, readsSched x p (.addRoundKey y k) = true → roundKey r (keyOf p) = roundKey r' (keyOf p)) :
    (w.keyed r y k f).bytes x = (w'.keyed r' y k f).bytes x ↔ w.bytes x = w'.bytes x := by
  cases k with
  | scratch => exact Iff.rfl
  | round n =>
    simp only [keyed]
    refine bytes_on_iff fun hy a a' => ?_
    have key : roundKey r n = roundKey r' n := by
      have hn : keyOf ⟨16 * n.val, by omega⟩ = n := Fin.ext (by simp [keyOf])
      have reads : readsSched x ⟨16 * n.val, by omega⟩ (.addRoundKey y (.round n)) = true := by simp [readsSched, hy]
      exact hn ▸ same _ reads
    rw [key]
    exact (hf.block _).eq_iff

end Work

section Entry

variable {c : Command} {x : Target} {r r' : Sched} {iv iv' : Block} {u : Instr} {w w' : Work}

theorem meaning_mismatch (body : inBody u = true) : (meaning c r iv w u).mismatch = w.mismatch := by
  cases u with
  | subBytes | invSubBytes | shiftRows | invShiftRows | mixColumns | invMixColumns | xorIv => exact Work.on_mismatch _
  | addRoundKey | round | lastRound | firstInvRound | invRound | decoyGroup => exact Work.keyed_mismatch
  | dfaSnapshot | dfaCompare | dual => cases body
  | _ => rfl

/-- An entry keeps a target's difference, and makes none, where the entry's other operand is the same. -/
theorem bytes_meaning_iff (body : inBody u = true) (same : SameOperand x r r' iv iv' u) :
    (meaning c r iv w u).bytes x = (meaning c r' iv' w' u).bytes x ↔ w.bytes x = w'.bytes x := by
  have pass {y : Target} {g : Block → Block} (hg : Function.Injective g) :
      (w.on y g).bytes x = (w'.on y g).bytes x ↔ w.bytes x = w'.bytes x :=
    Work.bytes_on_iff fun _ _ _ => hg.eq_iff
  have word (kind : RoundKind) (y : Target) (k : KeySel) (same : SameOperand x r r' iv iv' (roundWord kind y k)) :
      (meaning c r iv w (roundWord kind y k)).bytes x = (meaning c r' iv' w' (roundWord kind y k)).bytes x ↔
        w.bytes x = w'.bytes x := by
    rw [meaning_roundWord, meaning_roundWord]
    exact Work.bytes_keyed_iff (kindFn_biInjective kind) fun p hp =>
      same.key p ((readsSched_roundWord kind y k).trans hp)
  cases u with
  | subBytes => exact pass subBytes_injective
  | invSubBytes => exact pass invSubBytes_injective
  | shiftRows => exact pass shiftRows_injective
  | invShiftRows => exact pass invShiftRows_injective
  | mixColumns => exact pass mixColumns_injective
  | invMixColumns => exact pass invMixColumns_injective
  | addRoundKey y k => exact Work.bytes_keyed_iff xorBlock_biInjective same.key
  | round y k => exact word .round y k same
  | lastRound y k => exact word .lastRound y k same
  | firstInvRound y k => exact word .firstInvRound y k same
  | invRound y k => exact word .invRound y k same
  | decoyGroup kind y n => exact Work.bytes_keyed_iff (kindFn_biInjective kind) same.key
  | xorIv y =>
    refine Work.bytes_on_iff fun hy a a' => ?_
    rw [same.iv (hy ▸ rfl)]
    exact (xorBlock_biInjective.block iv').eq_iff
  | dfaSnapshot | dfaCompare | dual => cases body
  | _ => exact Iff.rfl

end Entry

end Sys2Proof.Machine
end

section
/-!
SUPPORT. Which entries read a byte of SCHED or IV for a target, and how often a list does (R136, R150): a body reads
each byte at most once, whatever the hardening, and an expansion reads it no more often than its entry.
-/
namespace Sys2Proof.Machine

/-- Whether an entry makes a real invocation on target `x` read byte `d`, one of SCHED or IV (R136, R150). -/
def readsByte (x : Target) : DataByte → Instr → Bool
  | .sched p, u => readsSched x p u
  | .iv _, .xorIv y => y == x
  | _, _ => false

section Reads

variable {b : Config.BuildFlags} {c : Command} {x y : Target} {d : DataByte} {kind : RoundKind} {n : Fin 11}

@[simp] theorem readsByte_roundWord (k : KeySel) :
    readsByte x d (roundWord kind y k) = readsByte x d (.addRoundKey y k) := by
  cases d with
  | sched p => exact readsSched_roundWord kind y k
  | iv j => cases kind <;> rfl
  | state | key | seed => rfl

@[simp] theorem readsByte_decoyGroup :
    readsByte x d (.decoyGroup kind y n) = readsByte x d (.addRoundKey y (.round n)) := by
  cases d <;> rfl

theorem readsByte_scratch : readsByte x d (.addRoundKey y .scratch) = false := by
  cases d <;> rfl

@[simp] theorem readsByte_delay (k : DelayClass) : readsByte x d (.delay k) = false := by
  cases d <;> rfl

@[simp] theorem readsByte_idle : readsByte x d .idle = false := by
  cases d <;> rfl

@[simp] theorem readsByte_decoyFill : readsByte x d .decoyFill = false := by
  cases d <;> rfl

@[simp] theorem readsByte_dfaSnapshot : readsByte x d .dfaSnapshot = false := by
  cases d <;> rfl

@[simp] theorem readsByte_dfaCompare : readsByte x d .dfaCompare = false := by
  cases d <;> rfl

@[simp] theorem readsByte_dual : readsByte x d .dual = false := by
  cases d <;> rfl

/-! ### Expansions -/

/-- How often a list reads the byte for the target. -/
def reads (x : Target) (d : DataByte) (l : List Instr) : Nat := l.countP (readsByte x d)

@[simp] theorem reads_nil : reads x d [] = 0 := rfl

@[simp] theorem reads_cons (u : Instr) (l : List Instr) :
    reads x d (u :: l) = reads x d l + (readsByte x d u).toNat := by
  simp [reads, List.countP_cons, Bool.toNat, Bool.cond_eq_ite]

@[simp] theorem reads_append (l m : List Instr) : reads x d (l ++ m) = reads x d l + reads x d m :=
  List.countP_append ..

@[simp] theorem reads_padPass (p : Instr) : reads x d (padPass b p) = (readsByte x d p).toNat := by
  unfold padPass
  split <;> simp

/-- Of a round kind's passes one reads a key (R140 to R143). -/
theorem reads_roundExpansion (k : KeySel) :
    reads x d (roundExpansion b kind y k) = (readsByte x d (.addRoundKey y k)).toNat := by
  have none : readsByte x d (.subBytes y) = false ∧ readsByte x d (.shiftRows y) = false ∧
      readsByte x d (.mixColumns y) = false ∧ readsByte x d (.invSubBytes y) = false ∧
      readsByte x d (.invShiftRows y) = false ∧ readsByte x d (.invMixColumns y) = false := by
    cases d <;> exact ⟨rfl, rfl, rfl, rfl, rfl, rfl⟩
  cases kind <;> simp [roundExpansion, roundPasses, none]

theorem reads_invocation (real : Bool) :
    reads x d (invocation kind y n real) = if real then (readsByte x d (.addRoundKey y (.round n))).toNat else 0 := by
  cases real <;> simp [invocation, readsByte_scratch]

/-- A call group reads what its real invocation reads (R175). -/
theorem reads_groupExpansion (cnt pos : Nat) :
    reads x d (groupExpansion kind y n cnt pos) =
      if pos < cnt then (readsByte x d (.addRoundKey y (.round n))).toNat else 0 := by
  induction cnt with
  | zero => rfl
  | succ m ih =>
    have split : groupExpansion kind y n (m + 1) pos =
        groupExpansion kind y n m pos ++ invocation kind y n (m == pos) := by
      simp [groupExpansion, List.range_succ]
    rw [split, reads_append, ih, reads_invocation]
    obtain h | rfl | h := Nat.lt_trichotomy pos m
    · simp [h, Nat.ne_of_gt h, Nat.lt_succ_of_lt h]
    · simp
    · simp [Nat.ne_of_lt h, Nat.not_lt_of_gt h, Nat.not_lt_of_ge h]

/-- But for DUAL, an expansion reads no more than its entry. -/
theorem reads_le_of_expands {u : Instr} {l : List Instr} (h : Expands b c u l) (hu : u ≠ .dual) :
    reads x d l ≤ (readsByte x d u).toNat := by
  cases h with
  | round kind y k => exact Nat.le_of_eq (by rw [reads_roundExpansion, readsByte_roundWord])
  | delay k n => simp [reads, List.countP_replicate]
  | group kind y n pos =>
    rw [reads_groupExpansion, readsByte_decoyGroup]
    split
    · exact Nat.le_refl _
    · exact Nat.zero_le _
  | dual => exact absurd rfl hu

/-! ### Bodies -/

theorem reads_hardRound :
    reads x d (hardRound b kind y n) = (readsByte x d (.addRoundKey y (.round n))).toNat := by
  have group : reads x d (groupOf b kind y n) = (readsByte x d (.addRoundKey y (.round n))).toNat := by
    unfold groupOf
    split <;> simp
  unfold hardRound
  split <;> simp [group]

theorem reads_flatMap_hardRound (l : List (Fin 11)) :
    reads x d (l.flatMap (hardRound b kind y)) = l.countP fun n => readsByte x d (.addRoundKey y (.round n)) := by
  induction l with
  | nil => rfl
  | cons n l ih => simp [ih, reads_hardRound, List.countP_cons, Bool.toNat, Bool.cond_eq_ite, Nat.add_comm]

/-- How often adding all eleven round keys to `y` reads the byte for `x`. -/
def keyReads (x y : Target) (d : DataByte) : Nat :=
  (List.finRange 11).countP fun n => readsByte x d (.addRoundKey y (.round n))

theorem keyReads_eq :
    keyReads x y d = (readsByte x d (.addRoundKey y (.round 0))).toNat +
      innerRounds.countP (fun n => readsByte x d (.addRoundKey y (.round n))) +
      (readsByte x d (.addRoundKey y (.round 10))).toNat := by
  have keys : List.finRange 11 = [0] ++ innerRounds ++ [10] := by decide
  simp only [keyReads, keys, List.countP_append, List.countP_singleton, Bool.toNat, Bool.cond_eq_ite]

theorem reads_encBody : reads x d (encBody b y) = keyReads x y d := by
  rw [keyReads_eq, encBody, reads_append, reads_append, reads_padPass, reads_flatMap_hardRound, reads_hardRound]

theorem reads_decBody : reads x d (decBody b y) = keyReads x y d := by
  rw [keyReads_eq, decBody, reads_append, reads_append, reads_padPass, reads_flatMap_hardRound, reads_hardRound,
    List.countP_reverse]
  omega

/-- How often a body reads the byte for the target it works on: each byte of SCHED once, IV once where it is used. -/
def bodyReads (c : Command) : DataByte → Nat
  | .sched _ => 1
  | .iv _ => (usesIv c).toNat
  | .state _ | .key _ | .seed _ => 0

theorem bodyReads_le_one (c : Command) (d : DataByte) : bodyReads c d ≤ 1 := by
  cases d with
  | iv j => exact Bool.toNat_le _
  | sched | state | key | seed => simp [bodyReads]

theorem reads_cipherBody (hc : c.isCipher = true) :
    reads x d (cipherBody b c y) = if y = x then bodyReads c d else 0 := by
  have once : ∀ q : Fin 11, (List.finRange 11).countP (fun n => n.val == q.val) = 1 := by decide
  have keys : keyReads x y d = if y = x ∧ ∃ p, d = .sched p then 1 else 0 := by
    cases d with
    | sched p =>
      by_cases hy : y = x
      · simpa [keyReads, readsByte, readsSched, hy] using once ⟨p.val / 16, by omega⟩
      · simp [keyReads, readsByte, readsSched, hy]
    | iv | state | key | seed => simp [keyReads, readsByte]
  have iv : (readsByte x d (.xorIv y)).toNat = if y = x ∧ ∃ j, d = .iv j then 1 else 0 := by
    cases d with
    | iv j => by_cases hy : y = x <;> simp [readsByte, hy]
    | sched | state | key | seed => simp [readsByte, readsSched]
  have body : reads x d (cipherBody b c y) =
      keyReads x y d + if usesIv c then (readsByte x d (.xorIv y)).toNat else 0 := by
    cases c with
    | ecbEnc => exact reads_encBody
    | ecbDec => exact reads_decBody
    | cbcEnc => simp [cipherBody, reads_encBody, usesIv, Nat.add_comm]
    | cbcDec => simp [cipherBody, reads_decBody, usesIv]
    | expandKey | seed => cases hc
  rw [body, keys, iv]
  cases d with
  | iv j => cases hu : usesIv c <;> simp [bodyReads, hu]
  | sched | state | key | seed => simp [bodyReads]

end Reads

end Sys2Proof.Machine
end

section
/-!
SUPPORT. A list between the snapshot and the comparison keeps a difference of its target, and a byte of SCHED or IV
that it reads once for a target makes one (R183).
-/
namespace Sys2Proof.Machine

/-! ### A replaced byte of an operand -/

theorem roundKey_set_of_ne (r : Sched) {p : Fin 176} {n : Fin 11} (h : n ≠ keyOf p) (v : Byte) :
    roundKey (r.set p v) n = roundKey r n := by
  refine Vector.ext fun j hj => ?_
  have other : p.val ≠ 16 * n.val + j := fun hp => h (Fin.ext (by simp only [keyOf]; omega))
  simp [roundKey, Vector.getElem_set_ne _ _ other]

theorem roundKey_set_ne {r : Sched} {p : Fin 176} {v : Byte} (h : v ≠ r[p]) :
    roundKey (r.set p v) (keyOf p) ≠ roundKey r (keyOf p) := by
  intro same
  have byte := congrArg (fun k : Block => k[p.val % 16]) same
  have index : 16 * (p.val / 16) + p.val % 16 = p.val := Nat.div_add_mod ..
  simp only [roundKey, keyOf, Vector.getElem_ofFn, index, Vector.getElem_set_self] at byte
  exact h byte

theorem set_ne {n : Nat} {k : Vector Byte n} {j : Fin n} {v : Byte} (h : v ≠ k[j]) : k.set j v ≠ k := by
  intro same
  have byte := congrArg (fun k : Vector Byte n => k[j]) same
  simp only [Fin.getElem_fin, Vector.getElem_set_self] at byte
  exact h byte

/-- The operand that holds byte `d`: its round key (R25), or IV. -/
def State.operandAt (s : State) : DataByte → Block
  | .sched p => roundKey s.sched (keyOf p)
  | .iv _ => s.iv
  | .state _ | .key _ | .seed _ => zeroBlock

section Entry

variable {c : Command} {x : Target} {d : DataByte} {u : Instr} {s : State} {v : Byte} {w w' : Work}

theorem operandAt_setByte_ne (reads : readsByte x d u = true) (h : v ≠ s.byteAt d) :
    s.operandAt d ≠ (s.setByte d v).operandAt d := by
  cases d with
  | sched p => exact (roundKey_set_ne h).symm
  | iv j => exact (set_ne h).symm
  | state | key | seed => cases reads

theorem readsSched_congr {p q : Fin 176} (h : keyOf p = keyOf q) : readsSched x p u = readsSched x q u := by
  have index : p.val / 16 = q.val / 16 := congrArg Fin.val h
  simp only [readsSched, index]

/-- An entry that does not read the byte finds its operand the same. -/
theorem sameOperand_of_not_reads (h : readsByte x d u = false) :
    SameOperand x s.sched (s.setByte d v).sched s.iv (s.setByte d v).iv u := by
  cases d with
  | sched p =>
    refine ⟨fun q hq => (roundKey_set_of_ne _ (fun hk => ?_) v).symm, fun _ => rfl⟩
    cases ((readsSched_congr hk).symm.trans hq).symm.trans h
  | iv j =>
    refine ⟨fun _ _ => rfl, fun hu => ?_⟩
    subst hu
    simp [readsByte] at h
  | state | key | seed => exact ⟨fun _ _ => rfl, fun _ => rfl⟩

/-- An entry that reads a byte for a target applies a function of the target and the byte's operand. -/
theorem exists_meaning_of_reads (h : readsByte x d u = true) :
    ∃ f, BiInjective f ∧ ∀ (c : Command) (s : State) (w : Work),
      meaning c s.sched s.iv w u = w.on x (f · (s.operandAt d)) := by
  have keyed {p : Fin 176} (y : Target) (k : KeySel) {f : Block → Block → Block} (hf : BiInjective f)
      (hu : ∀ (c : Command) (s : State) (w : Work), meaning c s.sched s.iv w u = w.keyed s.sched y k f)
      (reads : readsSched x p (.addRoundKey y k) = true) :
      ∃ f, BiInjective f ∧ ∀ (c : Command) (s : State) (w : Work),
        meaning c s.sched s.iv w u = w.on x (f · (s.operandAt (.sched p))) := by
    cases k with
    | scratch => cases reads
    | round n =>
      obtain ⟨rfl, rfl⟩ : y = x ∧ n = keyOf p := by simpa [readsSched, keyOf, Fin.ext_iff] using reads
      exact ⟨f, hf, hu⟩
  have word {p : Fin 176} (kind : RoundKind) (y : Target) (k : KeySel) (hu : u = roundWord kind y k)
      (reads : readsSched x p u = true) :
      ∃ f, BiInjective f ∧ ∀ (c : Command) (s : State) (w : Work),
        meaning c s.sched s.iv w u = w.on x (f · (s.operandAt (.sched p))) := by
    subst hu
    exact keyed y k (kindFn_biInjective kind) (fun c s w => meaning_roundWord c s.sched s.iv w kind y k)
      ((readsSched_roundWord kind y k).symm.trans reads)
  cases d with
  | sched p =>
    cases u with
    | addRoundKey y k => exact keyed y k xorBlock_biInjective (fun _ _ _ => rfl) h
    | round y k => exact word .round y k rfl h
    | lastRound y k => exact word .lastRound y k rfl h
    | firstInvRound y k => exact word .firstInvRound y k rfl h
    | invRound y k => exact word .invRound y k rfl h
    | decoyGroup kind y n => exact keyed y (.round n) (kindFn_biInjective kind) (fun _ _ _ => rfl) h
    | _ => cases h
  | iv j =>
    cases u with
    | xorIv y =>
      obtain rfl : y = x := eq_of_beq h
      exact ⟨_, xorBlock_biInjective, fun _ _ _ => rfl⟩
    | _ => cases h
  | state | key | seed => cases h

/-- An entry that reads a replaced byte for a target makes the target's bytes differ. -/
theorem bytes_meaning_ne (real : x ≠ .scrState) (reads : readsByte x d u = true) (hv : v ≠ s.byteAt d)
    (same : w.bytes x = w'.bytes x) :
    (meaning c s.sched s.iv w u).bytes x ≠ (meaning c (s.setByte d v).sched (s.setByte d v).iv w' u).bytes x := by
  obtain ⟨f, hf, hu⟩ := exists_meaning_of_reads reads
  have bytes (z : Work) (g : Block → Block) : (z.on x g).bytes x = g (z.bytes x) := by
    cases x with
    | state | dfaCopy => rfl
    | scrState => exact absurd rfl real
  rw [hu, hu, bytes, bytes, same]
  exact fun equal => operandAt_setByte_ne reads hv (hf.operand _ equal)

end Entry

/-! ### Lists -/

section Lists

variable {c : Command} {x : Target} {l : List Instr}

theorem meaningAll_mismatch {r : Sched} {iv : Block} (body : ∀ u ∈ l, inBody u = true) (w : Work) :
    (meaningAll c r iv w l).mismatch = w.mismatch := by
  induction l generalizing w with
  | nil => rfl
  | cons u l ih =>
    obtain ⟨hu, hl⟩ := List.forall_mem_cons.1 body
    exact (ih hl _).trans (meaning_mismatch hu)

/-- Where no operand differs, the list keeps a target's difference, and makes none. -/
theorem bytes_meaningAll_iff {r r' : Sched} {iv iv' : Block} (body : ∀ u ∈ l, inBody u = true)
    (same : ∀ u ∈ l, SameOperand x r r' iv iv' u) (w w' : Work) :
    (meaningAll c r iv w l).bytes x = (meaningAll c r' iv' w' l).bytes x ↔ w.bytes x = w'.bytes x := by
  induction l generalizing w w' with
  | nil => exact Iff.rfl
  | cons u l ih =>
    obtain ⟨hu, hl⟩ := List.forall_mem_cons.1 body
    obtain ⟨su, sl⟩ := List.forall_mem_cons.1 same
    exact (ih hl sl _ _).trans (bytes_meaning_iff hu su)

/-- Where the list reads a replaced byte once for a target, the target's bytes come to differ. -/
theorem bytes_meaningAll_ne {d : DataByte} {s : State} {v : Byte} (real : x ≠ .scrState)
    (body : ∀ u ∈ l, inBody u = true) (once : reads x d l = 1) (hv : v ≠ s.byteAt d) {w w' : Work}
    (same : w.bytes x = w'.bytes x) :
    (meaningAll c s.sched s.iv w l).bytes x ≠
      (meaningAll c (s.setByte d v).sched (s.setByte d v).iv w' l).bytes x := by
  have unread {m : List Instr} (h : reads x d m = 0) :
      ∀ u ∈ m, SameOperand x s.sched (s.setByte d v).sched s.iv (s.setByte d v).iv u := fun u hu =>
    sameOperand_of_not_reads (Bool.eq_false_iff.2 (List.countP_eq_zero.1 h u hu))
  induction l generalizing w w' with
  | nil => cases once
  | cons u l ih =>
    obtain ⟨hu, hl⟩ := List.forall_mem_cons.1 body
    rw [reads_cons] at once
    cases read : readsByte x d u with
    | false =>
      rw [read] at once
      exact ih hl once ((bytes_meaning_iff hu (sameOperand_of_not_reads read)).2 same)
    | true =>
      rw [read] at once
      exact mt (bytes_meaningAll_iff hl (unread (Nat.succ.inj once)) _ _).1 (bytes_meaning_ne real read hv same)

end Lists

end Sys2Proof.Machine
end

section
/-!
SUPPORT. The lists a cipher command goes through in a build with ANTIDFA_EN (R181, R186): before DUAL, at the snapshot,
between snapshot and comparison, and after the comparison.
-/
namespace Sys2Proof.Machine

/-- Nothing but delays and their ticks (R171, R172). -/
def Inert (l : List Instr) : Prop := ∀ u ∈ l, u = .idle ∨ ∃ k, u = .delay k

/-- Entries of bodies, which read each byte of SCHED and IV for DFA_COPY once at most. -/
structure BodyPart (l : List Instr) : Prop where
  body : ∀ u ∈ l, inBody u = true
  once : ∀ d, reads .dfaCopy d l ≤ 1

/-- Where a cipher command's list stands in its dual computation (R181). -/
inductive DualPhase (b : Config.BuildFlags) (c : Command) : List Instr → Prop
  | before {pre post : List Instr} (hpre : Inert pre) (hpost : Inert post) : DualPhase b c (pre ++ .dual :: post)
  | snapshot {post : List Instr} (hpost : Inert post) : DualPhase b c (dualExpansion b c ++ post)
  | between {pre post : List Instr} (hpre : BodyPart pre) (hpost : Inert post) :
      DualPhase b c (pre ++ .dfaCompare :: post)
  | after {post : List Instr} (hpost : Inert post) : DualPhase b c post

section Lists

variable {b : Config.BuildFlags} {c : Command} {x y : Target} {d : DataByte} {kind : RoundKind} {l m rest : List Instr}
  {u : Instr}

/-! ### Delays -/

namespace Inert

theorem tail (h : Inert (u :: l)) : Inert l := (List.forall_mem_cons.1 h).2

theorem append (hl : Inert l) (hm : Inert m) : Inert (l ++ m) := List.forall_mem_append.2 ⟨hl, hm⟩

theorem inBody (h : Inert l) (hu : u ∈ l) : inBody u = true := by
  obtain rfl | ⟨k, rfl⟩ := h u hu <;> rfl

theorem reads_eq_zero (h : Inert l) : reads x d l = 0 := by
  refine List.countP_eq_zero.2 fun u hu => ?_
  obtain rfl | ⟨k, rfl⟩ := h u hu <;> simp

theorem meaningAll_eq {r : Sched} {iv : Block} (h : Inert l) (w : Work) : meaningAll c r iv w l = w := by
  induction l with
  | nil => rfl
  | cons u l ih => obtain rfl | ⟨k, rfl⟩ := h u (List.mem_cons_self ..) <;> exact ih h.tail

/-- Only ticks come of a delay (R172). -/
theorem expands (h : Inert (u :: rest)) (hexp : Expands b c u l) : Inert (l ++ rest) := by
  refine append (fun v hv => ?_) h.tail
  cases hexp with
  | delay k n => exact .inl (List.eq_of_mem_replicate hv)
  | round kind x k => cases kind <;> simp [Inert, roundWord] at h
  | group | dual => simp [Inert] at h

end Inert

/-! ### Bodies and their expansions -/

@[simp] theorem inBody_roundWord (kind : RoundKind) (x : Target) (k : KeySel) : inBody (roundWord kind x k) = true := by
  cases kind <;> rfl

@[simp] theorem inBody_delay (k : DelayClass) : inBody (.delay k) = true := rfl

@[simp] theorem inBody_decoyGroup (kind : RoundKind) (x : Target) (n : Fin 11) :
    inBody (.decoyGroup kind x n) = true := rfl

@[simp] theorem inBody_decoyFill : inBody .decoyFill = true := rfl

theorem inBody_padPass {p : Instr} (hp : inBody p = true) : ∀ u ∈ padPass b p, inBody u = true := by
  unfold padPass
  split <;> simp [hp]

theorem inBody_hardRound (n : Fin 11) : ∀ u ∈ hardRound b kind x n, inBody u = true := by
  have group : ∀ u ∈ groupOf b kind x n, inBody u = true := by
    unfold groupOf
    split <;> simp
  have delay : ∀ u ∈ [Instr.delay .long], inBody u = true := by simp
  unfold hardRound
  split
  · exact List.forall_mem_append.2 ⟨List.forall_mem_append.2 ⟨delay, group⟩, delay⟩
  · exact group

theorem inBody_flatMap_hardRound (ns : List (Fin 11)) : ∀ u ∈ ns.flatMap (hardRound b kind x), inBody u = true := by
  intro u hu
  obtain ⟨n, -, hn⟩ := List.mem_flatMap.1 hu
  exact inBody_hardRound n u hn

theorem inBody_encBody : ∀ u ∈ encBody b x, inBody u = true := by
  simp only [encBody, List.forall_mem_append]
  exact ⟨⟨inBody_padPass rfl, inBody_flatMap_hardRound _⟩, inBody_hardRound _⟩

theorem inBody_decBody : ∀ u ∈ decBody b x, inBody u = true := by
  simp only [decBody, List.forall_mem_append]
  exact ⟨⟨inBody_hardRound _, inBody_flatMap_hardRound _⟩, inBody_padPass rfl⟩

theorem inBody_cipherBody : ∀ u ∈ cipherBody b c x, inBody u = true := by
  cases c with
  | ecbEnc => exact inBody_encBody
  | ecbDec => exact inBody_decBody
  | cbcEnc => exact List.forall_mem_append.2 ⟨inBody_padPass rfl, inBody_encBody⟩
  | cbcDec => exact List.forall_mem_append.2 ⟨inBody_decBody, inBody_padPass rfl⟩
  | expandKey | seed => exact List.forall_mem_nil _

/-- An expansion of a body's entry is part of a body. -/
theorem inBody_of_expands (h : Expands b c u l) (hu : inBody u = true) : ∀ v ∈ l, inBody v = true := by
  cases h with
  | round kind x k =>
    intro v hv
    obtain ⟨p, hp, hv⟩ := List.mem_flatMap.1 hv
    have passes : ∀ p ∈ roundPasses kind x k, inBody p = true := by cases kind <;> simp [roundPasses, inBody]
    exact inBody_padPass (passes p hp) v hv
  | delay k n =>
    intro v hv
    rw [List.eq_of_mem_replicate hv]
    rfl
  | group kind x n pos =>
    intro v hv
    obtain ⟨j, -, hv⟩ := List.mem_flatMap.1 hv
    have invoked : ∀ v ∈ invocation kind x n (j == pos), inBody v = true := by
      unfold invocation
      split <;> simp
    exact invoked v hv
  | dual => cases hu

namespace BodyPart

theorem tail (h : BodyPart (u :: l)) : BodyPart l where
  body := (List.forall_mem_cons.1 h.body).2
  once d := Nat.le_trans (by simp) (h.once d)

theorem expands (h : BodyPart (u :: rest)) (hexp : Expands b c u l) : BodyPart (l ++ rest) := by
  obtain ⟨hu, hrest⟩ := List.forall_mem_cons.1 h.body
  refine ⟨List.forall_mem_append.2 ⟨inBody_of_expands hexp hu, hrest⟩, fun d => ?_⟩
  have fewer : reads .dfaCopy d l ≤ (readsByte .dfaCopy d u).toNat :=
    reads_le_of_expands hexp fun dual => by cases dual ▸ hu
  have once := h.once d
  rw [reads_cons] at once
  rw [reads_append]
  omega

/-- What follows the snapshot: the body on STATE, a delay and the body on DFA_COPY (R181). -/
theorem of_bodies (hc : c.isCipher = true) :
    BodyPart (cipherBody b c .state ++ [.delay .dualComputation] ++ cipherBody b c .dfaCopy) where
  body := by
    simp only [List.forall_mem_append, List.forall_mem_singleton]
    exact ⟨⟨inBody_cipherBody, rfl⟩, inBody_cipherBody⟩
  once d := by simpa [reads_cipherBody hc] using bodyReads_le_one c d

end BodyPart

/-! ### Phase by phase -/

theorem Expands.eq_dualExpansion (h : Expands b c .dual l) : l = dualExpansion b c := by
  generalize hu : Instr.dual = u at h
  cases h with
  | round kind => cases kind <;> cases hu
  | delay | group => cases hu
  | dual => rfl

namespace DualPhase

/-- The list the command starts with (R186). -/
theorem commandSteps (hc : c.isCipher = true) (ha : b.antidfaEn = true) : DualPhase b c (commandSteps b c) := by
  have steps : Machine.commandSteps b c = cipherSteps b c := by
    cases c with
    | ecbEnc | ecbDec | cbcEnc | cbcDec => rfl
    | expandKey | seed => cases hc
  have none : Inert [] := List.forall_mem_nil _
  have delay : Inert [.delay .long] := by simp [Inert]
  simp only [steps, cipherSteps, midSteps, ha, if_true]
  split
  · exact before delay delay
  · exact before none none

theorem perform (hc : c.isCipher = true) (hu : isMacro u = false) (h : DualPhase b c (u :: rest)) :
    DualPhase b c rest := by
  generalize hl : u :: rest = l at h
  cases h with
  | @before pre post hpre hpost =>
    cases pre with
    | nil =>
      cases hl
      cases hu
    | cons a pre =>
      cases hl
      exact before hpre.tail hpost
  | @snapshot post hpost =>
    have list : rest = cipherBody b c .state ++ [.delay .dualComputation] ++ cipherBody b c .dfaCopy ++
        .dfaCompare :: post := by simpa [dualExpansion] using (List.cons.inj hl).2
    exact list ▸ between (.of_bodies hc) hpost
  | @between pre post hpre hpost =>
    cases pre with
    | nil =>
      cases hl
      exact after hpost
    | cons a pre =>
      cases hl
      exact between hpre.tail hpost
  | after hpost =>
    subst hl
    exact after hpost.tail

theorem expand (hu : isMacro u = true) (hexp : Expands b c u l) (h : DualPhase b c (u :: rest)) :
    DualPhase b c (l ++ rest) := by
  generalize hl : u :: rest = m at h
  cases h with
  | @before pre post hpre hpost =>
    cases pre with
    | nil =>
      cases hl
      rw [hexp.eq_dualExpansion]
      exact snapshot hpost
    | cons a pre =>
      cases hl
      exact List.append_assoc .. ▸ before (hpre.expands hexp) hpost
  | snapshot hpost =>
    cases hl
    cases hu
  | @between pre post hpre hpost =>
    cases pre with
    | nil =>
      cases hl
      cases hu
    | cons a pre =>
      cases hl
      exact List.append_assoc .. ▸ between (hpre.expands hexp) hpost
  | after hpost =>
    subst hl
    exact after (hpost.expands hexp)

/-- A list with the comparison but not the snapshot stands between the two. -/
theorem between_of_mem (h : DualPhase b c l) (compare : .dfaCompare ∈ l) (snapshot : .dfaSnapshot ∉ l) :
    ∃ pre post, l = pre ++ .dfaCompare :: post ∧ BodyPart pre ∧ Inert post := by
  cases h with
  | before hpre hpost =>
    obtain hm | hm := List.mem_append.1 compare
    · cases hpre.inBody hm
    · cases hpost.inBody ((List.mem_cons.1 hm).resolve_left nofun)
  | snapshot => simp [dualExpansion] at snapshot
  | between hpre hpost => exact ⟨_, _, rfl, hpre, hpost⟩
  | after hpost => cases hpost.inBody compare

/-- A list that still reads a byte for DFA_COPY and no longer for STATE stands between snapshot and comparison. -/
theorem between_of_reads (hc : c.isCipher = true) (h : DualPhase b c l) (state : reads .state d l = 0)
    (copy : reads .dfaCopy d l ≠ 0) :
    ∃ pre post, l = pre ++ .dfaCompare :: post ∧ BodyPart pre ∧ Inert post := by
  cases h with
  | before hpre hpost => simp [hpre.reads_eq_zero, hpost.reads_eq_zero] at copy
  | @snapshot post hpost =>
    have onState : reads .state d (dualExpansion b c ++ post) = bodyReads c d := by
      simp [dualExpansion, reads_cipherBody hc, hpost.reads_eq_zero]
    have onCopy : reads .dfaCopy d (dualExpansion b c ++ post) = bodyReads c d := by
      simp [dualExpansion, reads_cipherBody hc, hpost.reads_eq_zero]
    exact absurd (onCopy.trans (onState.symm.trans state)) copy
  | between hpre hpost => exact ⟨_, _, rfl, hpre, hpost⟩
  | after hpost => exact absurd hpost.reads_eq_zero copy

end DualPhase

end Lists

end Sys2Proof.Machine
end

section
/-!
SUPPORT. Where a running cipher command stands (R76): a property of lists that performing the head and expanding it keep
holds of the running list whenever BUSY is 1, and the run's result is carried so far; and a corrupted run still
ends with the result its list computes (R183).
-/
namespace Sys2Proof.Machine

/-! ### Where the run stands -/

/-- `P` holds of a list after its head is performed or expanded, where it held before. -/
structure KeptByRun (b : Config.BuildFlags) (c : Command) (P : List Instr → Prop) : Prop where
  perform : ∀ {u rest}, isMacro u = false → P (u :: rest) → P rest
  expand : ∀ {u rest l}, isMacro u = true → Expands b c u l → P (u :: rest) → P (l ++ rest)

theorem DualPhase.keptByRun {b : Config.BuildFlags} {c : Command} (hc : c.isCipher = true) :
    KeptByRun b c (DualPhase b c) := ⟨perform hc, expand⟩

/-- `s` is settled, the command `c` is under way with a list of which `P` holds, and the result is that of `s₀`. -/
structure StandsAt (P : List Instr → Prop) (b : Config.BuildFlags) (c : Command) (s₀ s : State) (u : Instr)
    (rest : List Instr) : Prop where
  head : isMacro u = false
  list : P (u :: rest)
  underway : Underway b c (u :: rest) s
  carries : Carries s₀ s

theorem StandsAt.after {P : List Instr → Prop} {b : Config.BuildFlags} {c : Command} {r s t : State} {u : Instr}
    {rest : List Instr} (h : StandsAt P b c s t u rest) (carried : Carries r s) : StandsAt P b c r t u rest :=
  ⟨h.head, h.list, h.underway, carried.trans h.carries⟩

section Run

variable {P : List Instr → Prop} {b : Config.BuildFlags} {c : Command} {s t : State} {l rest : List Instr} {u : Instr}

/-- `settle` ends the command, or stops at a head that is not expanded. -/
theorem standsAt_settle (kept : KeptByRun b c P) (hP : P l) (h : Underway b c l s)
    (busy : (settle s).busy = true) : ∃ u rest, StandsAt P b c s (settle s) u rest := by
  induction l using expansion_induction (b := b) (c := c) generalizing s with
  | nil =>
    rw [settle_of_nil h.seq, busy_of_idle (endCommand_seq s c)] at busy
    cases busy
  | step u rest hu =>
    rw [settle_of_head h.seq hu]
    exact ⟨u, rest, hu, hP, h, .of_onlyHidden (.refl s) rfl⟩
  | expand u rest hu ih =>
    obtain ⟨r, l, he, hr, hexp, entries, hsettle⟩ := settle_expand h.seq hu (h.config ▸ h.entries)
    have carried : Carries s r := by
      refine .of_onlyHidden (.trans (.putSeq s _) (exec_macro hu he)) (result_of_exec_macro hu ?_ h.seq he)
      rw [h.config]
      exact (AllProduced.cons_iff.1 h.entries).1
    rw [carried.config, h.config] at entries
    rw [h.config] at hexp
    rw [hsettle] at busy ⊢
    obtain ⟨v, tail, stands⟩ := ih l hexp (kept.expand hu hexp hP) (h.of_carries carried hr entries) busy
    exact ⟨v, tail, stands.after carried⟩

/-- One turn performs the head or is the host's. -/
theorem exists_step_of_underway (hc : c.isCipher = true) (hu : isMacro u = false) (h : Underway b c (u :: rest) s) :
    ∃ r l, step s = .next (settle r) ∧ Carries s r ∧ Underway b c l r ∧ (l = rest ∨ l = u :: rest) := by
  obtain ⟨hup, hrest⟩ := AllProduced.cons_iff.1 h.entries
  have performed (turn : s.nextTurn = .core) :
      ∃ r l, step s = .next (settle r) ∧ Carries s r ∧ Underway b c l r ∧ (l = rest ∨ l = u :: rest) := by
    obtain ⟨r, hstep, hr, carried⟩ := carries_of_core hc h.seq hu (h.config ▸ hup) h.inputs turn
    exact ⟨r, rest, hstep, carried, h.of_carries carried hr hrest, .inl rfl⟩
  cases turns : s.turns with
  | nil => exact performed (by simp [State.nextTurn, turns, busy_of_running h.seq])
  | cons a coming =>
    obtain rfl | rfl := h.turns a (by simp [turns])
    · obtain ⟨r, hstep, hseq, -, carried⟩ := carries_of_host h.seq turns
      exact ⟨r, _, hstep, carried, h.of_carries carried (hseq.trans h.seq) h.entries, .inr rfl⟩
    · exact performed (by simp [State.nextTurn, turns])

/-- BUSY is 1 in `s` and after each of the next `n` steps. -/
def BusyFor (n : Nat) (s : State) : Prop :=
  ∀ m, m ≤ n → ∃ u, Host.Core.run core m s = .next u ∧ u.busy = true

theorem BusyFor.now {n : Nat} (h : BusyFor n s) : s.busy = true := by
  obtain ⟨u, hu, busy⟩ := h 0 (Nat.zero_le n)
  cases hu
  exact busy

theorem BusyFor.later {n : Nat} (h : BusyFor (n + 1) s) (hstep : step s = .next t) : BusyFor n t := by
  intro m hm
  simpa only [run_succ_of_step hstep] using h (m + 1) (Nat.succ_le_succ hm)

/-- While BUSY is 1, the run stands at a list of which the kept property holds. -/
theorem standsAt_run (kept : KeptByRun b c P) (hc : c.isCipher = true) {n : Nat} (hP : P l) (h : Underway b c l s)
    (busy : BusyFor n (settle s)) (run : Host.Core.run core n (settle s) = .next t) :
    ∃ u rest, StandsAt P b c s t u rest := by
  induction n generalizing s l with
  | zero =>
    cases run
    exact standsAt_settle kept hP h busy.now
  | succ n ih =>
    obtain ⟨u, rest, stands⟩ := standsAt_settle kept hP h busy.now
    obtain ⟨r, m, hstep, carried, underway, hm⟩ := exists_step_of_underway hc stands.head stands.underway
    have hPm : P m := by
      obtain rfl | rfl := hm
      · exact kept.perform stands.head stands.list
      · exact stands.list
    obtain ⟨v, tail, reached⟩ := ih hPm underway (busy.later hstep) ((run_succ_of_step hstep n).symm.trans run)
    exact ⟨v, tail, reached.after (stands.carries.trans carried)⟩

/-- A settled state in which a cipher command is under way runs to the end of the command, with its result. -/
theorem exists_run_to_result (hc : c.isCipher = true) (hu : isMacro u = false) (h : Underway b c (u :: rest) s) :
    ∃ n t, Host.Core.run core n s = .next t ∧ t.seq = .idle ∧ (t.state, t.mismatch) = s.result := by
  obtain ⟨t, finishes, carries⟩ := concludes hc _ s h
  rw [settle_of_head h.seq hu] at finishes
  obtain ⟨n, run, -⟩ := finishes.run
  exact ⟨n, t, run, finishes.idle, (result_of_idle finishes.idle).symm.trans carries.result⟩

/-- Mismatches are only counted up (R36). -/
theorem mismatch_le_of_run {n : Nat} (run : Host.Core.run core n s = .next t) : s.mismatch ≤ t.mismatch := by
  induction n generalizing s with
  | zero =>
    cases run
    exact Nat.le_refl _
  | succ n ih =>
    cases hstep : step s with
    | next r =>
      obtain ⟨-, -, counted⟩ := ghostsAreNeverCleared s r hstep
      have later := ih ((run_succ_of_step hstep n).symm.trans run)
      omega
    | fault e =>
      have stop : core.step s = .fault e := hstep
      simp [Host.Core.run, stop] at run
    | refused e =>
      have stop : core.step s = .refused e := hstep
      simp [Host.Core.run, stop] at run

end Run

/-! ### The comparison at the end of the dual computation -/

section Compare

variable {b : Config.BuildFlags} {c : Command} {pre post : List Instr} {s : State}

/-- What the entries before the comparison compute from `s`. -/
def State.workAfter (s : State) (c : Command) (pre : List Instr) : Work := meaningAll c s.sched s.iv s.work pre

/-- The command's result is decided by the comparison (R182). -/
theorem result_of_between (hs : s.seq = .running c (pre ++ .dfaCompare :: post)) (hpost : Inert post) :
    s.result = ((s.workAfter c pre).compare.state, (s.workAfter c pre).compare.mismatch) := by
  simp [State.result, hs, meaning, hpost.meaningAll_eq, State.workAfter]

/-- Where the two passes end with different blocks, STATE is zeroed and a mismatch counted (R182). -/
theorem result_of_bytes_ne (hs : s.seq = .running c (pre ++ .dfaCompare :: post)) (hpre : BodyPart pre)
    (hpost : Inert post) (differ : (s.workAfter c pre).bytes .state ≠ (s.workAfter c pre).bytes .dfaCopy) :
    s.result = (zeroBlock, s.mismatch + 1) := by
  have kept : (s.workAfter c pre).mismatch = s.mismatch := meaningAll_mismatch hpre.body s.work
  rw [result_of_between hs hpost, Work.compare_of_ne differ, ← kept]

/-- Where no mismatch is to come, the two passes end with the same block. -/
theorem bytes_eq_of_result (hs : s.seq = .running c (pre ++ .dfaCompare :: post)) (hpre : BodyPart pre)
    (hpost : Inert post) (none : s.result.2 ≤ s.mismatch) :
    (s.workAfter c pre).bytes .state = (s.workAfter c pre).bytes .dfaCopy := by
  refine Classical.byContradiction fun differ => ?_
  rw [result_of_bytes_ne hs hpre hpost differ] at none
  exact Nat.not_succ_le_self _ none

end Compare

end Sys2Proof.Machine
end

section
/-!
SUPPORT. The two detected cases of R183: a byte of STATE or DFA_COPY replaced between snapshot and comparison, and a
byte of SCHED or IV replaced between the two passes' reads of it. Either way exactly one of the two compared blocks
changes.
-/
namespace Sys2Proof.Machine

/-! ### A fault event leaves the command under way (R190) -/

theorem Underway.corrupt {b : Config.BuildFlags} {c : Command} {l : List Instr} {s : State} (h : Underway b c l s)
    (x : HwByte) (v : Byte) : Underway b c l (s.corrupt x v) := by
  obtain ⟨config, seq, entries, turns, inputs⟩ := h
  cases x with
  | data d => cases d <;> exact ⟨config, seq, entries, turns, inputs⟩
  | dfaCopy | scrState | scrKey => exact ⟨config, seq, entries, turns, inputs⟩

theorem corrupt_mismatch (s : State) (x : HwByte) (v : Byte) : (s.corrupt x v).mismatch = s.mismatch := by
  cases x with
  | data d => cases d <;> rfl
  | dfaCopy | scrState | scrKey => rfl

/-! ### From the difference to the zeroed STATE -/

/-- The uncorrupted run of the cipher command `c`, accepted in `s`, stands in `t` between snapshot and comparison, with
`pre` before the comparison. -/
structure StandsBetween (s : State) (c : Command) (t : State) (pre : List Instr) : Prop where
  cipher : c.isCipher = true
  part : BodyPart pre
  list : ∃ u rest post, isMacro u = false ∧ u :: rest = pre ++ .dfaCompare :: post ∧ Inert post ∧
    Underway s.config c (u :: rest) t
  result : t.result.2 = s.mismatch
  mismatch : s.mismatch ≤ t.mismatch

namespace StandsBetween

variable {s t : State} {c : Command} {pre : List Instr}

/-- Left alone, the two passes would end with the same block. -/
theorem bytes_eq (h : StandsBetween s c t pre) :
    (t.workAfter c pre).bytes .state = (t.workAfter c pre).bytes .dfaCopy ∧ t.mismatch = s.mismatch := by
  obtain ⟨u, rest, post, -, list, hpost, underway⟩ := h.list
  have seq : t.seq = .running c (pre ++ .dfaCompare :: post) := list ▸ underway.seq
  have none : t.result.2 ≤ t.mismatch := Nat.le_trans (Nat.le_of_eq h.result) h.mismatch
  have equal := bytes_eq_of_result seq h.part hpost none
  refine ⟨equal, ?_⟩
  have result := h.result
  rw [result_of_between seq hpost, Work.compare_of_eq equal] at result
  exact (meaningAll_mismatch h.part.body t.work).symm.trans result

/-- A fault event that makes them differ is detected (R182, R183). -/
theorem detected (h : StandsBetween s c t pre) {x : HwByte} {v : Byte}
    (differ : ((t.corrupt x v).workAfter c pre).bytes .state ≠ ((t.corrupt x v).workAfter c pre).bytes .dfaCopy) :
    ∃ m u, Host.Core.run core m (t.corrupt x v) = .next u ∧ u.seq = .idle ∧
      u.state = Vector.replicate 16 0x00#8 ∧ u.mismatch = s.mismatch + 1 := by
  obtain ⟨u, rest, post, hu, list, hpost, underway⟩ := h.list
  have underway' := underway.corrupt x v
  obtain ⟨m, r, run, idle, result⟩ := exists_run_to_result h.cipher hu underway'
  rw [result_of_bytes_ne (list ▸ underway'.seq) h.part hpost differ, corrupt_mismatch, h.bytes_eq.2,
    Prod.mk.injEq] at result
  exact ⟨m, r, run, idle, result.1, result.2⟩

end StandsBetween

section Accepted

variable {s t : State} {c : Command} {n : Nat} {rest : List Instr}

/-- The run of an accepted cipher command in a build with ANTIDFA_EN, while BUSY is 1. -/
theorem standsAt_of_accepted (hc : c.isCipher = true) (anti : s.config.antidfaEn = true) (turns : s.onlyHostAndCore)
    (inputs : s.inputsWritten c) (busy : BusyFor n (s.started c))
    (run : Host.Core.run core n (s.started c) = .next t) (seq : t.seq = .running c rest) :
    ∃ u tail, rest = u :: tail ∧ StandsAt (DualPhase s.config c) s.config c (s.accept c) t u tail := by
  have underway : Underway s.config c (commandSteps s.config c) (s.accept c) :=
    ⟨rfl, rfl, allProduced_commandSteps s.config c, turns, inputs⟩
  obtain ⟨u, tail, stands⟩ := standsAt_run (DualPhase.keptByRun hc) hc (.commandSteps hc anti) underway busy run
  have same := seq.symm.trans stands.underway.seq
  exact ⟨u, tail, (Seq.running.inj same).2, stands⟩

theorem standsBetween_of_standsAt (hc : c.isCipher = true) (run : Host.Core.run core n (s.started c) = .next t)
    {u : Instr} {tail : List Instr} (stands : StandsAt (DualPhase s.config c) s.config c (s.accept c) t u tail)
    (between : ∃ pre post, u :: tail = pre ++ .dfaCompare :: post ∧ BodyPart pre ∧ Inert post) :
    ∃ pre post, u :: tail = pre ++ .dfaCompare :: post ∧ Inert post ∧ StandsBetween s c t pre := by
  obtain ⟨pre, post, list, part, hpost⟩ := between
  have started : (s.started c).mismatch = s.mismatch := by
    obtain ⟨_, _, _, _, _, _, h⟩ := settle_only (s.accept c)
    rw [State.started, h]
    rfl
  refine ⟨pre, post, list, hpost, hc, part, ⟨u, tail, post, stands.head, list, hpost, stands.underway⟩, ?_, ?_⟩
  · rw [stands.carries.result, result_accept s hc]
  · exact started ▸ mismatch_le_of_run run

end Accepted

/-! ### A byte of STATE or DFA_COPY -/

/-- The corrupted target's difference is kept and the other target is as it was, so the two blocks differ. -/
theorem workAfter_corrupt_ne {t : State} {c : Command} {pre : List Instr} (part : BodyPart pre)
    (equal : (t.workAfter c pre).bytes .state = (t.workAfter c pre).bytes .dfaCopy) {x : HwByte} {v : Byte}
    (hx : ∃ j, x = .data (.state j) ∨ x = .dfaCopy j) (hv : v ≠ t.hwByteAt x) :
    ((t.corrupt x v).workAfter c pre).bytes .state ≠ ((t.corrupt x v).workAfter c pre).bytes .dfaCopy := by
  have kept (y : Target) (w : Work) :
      (meaningAll c t.sched t.iv w pre).bytes y = (t.workAfter c pre).bytes y ↔ w.bytes y = t.work.bytes y :=
    bytes_meaningAll_iff part.body (fun _ _ => .refl ..) w t.work
  obtain ⟨j, rfl | rfl⟩ := hx
  · have state := mt (kept .state ((t.corrupt (.data (.state j)) v).work)).1 (set_ne hv)
    have copy := (kept .dfaCopy ((t.corrupt (.data (.state j)) v).work)).2 rfl
    exact fun same => state (same.trans (copy.trans equal.symm))
  · have state := (kept .state ((t.corrupt (.dfaCopy j) v).work)).2 rfl
    have copy := mt (kept .dfaCopy ((t.corrupt (.dfaCopy j) v).work)).1 (set_ne hv)
    exact fun same => copy (same.symm.trans (state.trans equal))

/-- Settles O52: the list holds a comparison and no snapshot, so the run stands between them, where a difference of one
target is kept up to the comparison. -/
theorem singleCorruptionIsDetected : Obligations.SingleCorruptionIsDetected := by
  unfold Obligations.SingleCorruptionIsDetected
  intro s c hc _ anti _ turns inputs n t rest busy run seq compare snapshot x v hx hv
  obtain ⟨u, tail, rfl, stands⟩ := standsAt_of_accepted hc anti turns inputs busy run seq
  obtain ⟨pre, post, -, -, h⟩ :=
    standsBetween_of_standsAt hc run stands (stands.list.between_of_mem compare snapshot)
  exact h.detected (workAfter_corrupt_ne h.part h.bytes_eq.1 hx hv)

/-! ### A byte of SCHED or IV -/

/-- The copy reads the replaced byte once and STATE does not, so the two blocks differ. -/
theorem workAfter_corrupt_data_ne {t : State} {c : Command} {pre : List Instr} (part : BodyPart pre)
    (equal : (t.workAfter c pre).bytes .state = (t.workAfter c pre).bytes .dfaCopy) {d : DataByte} {v : Byte}
    (state : reads .state d pre = 0) (copy : reads .dfaCopy d pre = 1) (hv : v ≠ t.byteAt d) :
    ((t.corrupt (.data d) v).workAfter c pre).bytes .state ≠
      ((t.corrupt (.data d) v).workAfter c pre).bytes .dfaCopy := by
  have changed : (t.corrupt (.data d) v).workAfter c pre =
      meaningAll c (t.setByte d v).sched (t.setByte d v).iv t.work pre := by
    obtain ⟨u, -, read⟩ := List.countP_pos_iff.1 (Nat.lt_of_lt_of_eq Nat.one_pos copy.symm)
    cases d with
    | sched | iv => rfl
    | state | key | seed => cases read
  rw [changed]
  have unread (u : Instr) (hu : u ∈ pre) :
      SameOperand .state t.sched (t.setByte d v).sched t.iv (t.setByte d v).iv u :=
    sameOperand_of_not_reads (Bool.eq_false_iff.2 (List.countP_eq_zero.1 state u hu))
  have state' := (bytes_meaningAll_iff (c := c) part.body unread t.work t.work).2 rfl
  have copy' := bytes_meaningAll_ne (c := c) (x := .dfaCopy) (w := t.work) nofun part.body copy hv rfl
  exact fun same => copy' (equal.symm.trans (state'.trans same))

theorem readsByte_iv_iff {x : Target} {j : Fin 16} {u : Instr} : readsByte x (.iv j) u = true ↔ u = .xorIv x := by
  cases u <;> simp [readsByte]

/-- Settles O60: at the snapshot both bodies are still to read the byte and afterwards DFA_COPY's alone, so the run
stands between snapshot and comparison, and only the copy's block comes to differ. -/
theorem corruptionBetweenTheReadsIsDetected : Obligations.CorruptionBetweenTheReadsIsDetected := by
  unfold Obligations.CorruptionBetweenTheReadsIsDetected
  intro s c hc _ anti _ turns inputs n t rest busy run seq d v hd hv
  obtain ⟨u, tail, rfl, stands⟩ := standsAt_of_accepted hc anti turns inputs busy run seq
  have unread : reads .state d (u :: tail) = 0 ∧ reads .dfaCopy d (u :: tail) ≠ 0 := by
    obtain ⟨p, rfl, state, w, hw, copy⟩ | ⟨j, rfl, state, copy⟩ := hd
    · exact ⟨List.countP_eq_zero.2 fun u hu => by simp [readsByte, state u hu],
        Nat.ne_of_gt (List.countP_pos_iff.2 ⟨w, hw, copy⟩)⟩
    · exact ⟨List.countP_eq_zero.2 fun u hu read => state (readsByte_iv_iff.1 read ▸ hu),
        Nat.ne_of_gt (List.countP_pos_iff.2 ⟨_, copy, readsByte_iv_iff.2 rfl⟩)⟩
  obtain ⟨pre, post, list, hpost, h⟩ :=
    standsBetween_of_standsAt hc run stands (stands.list.between_of_reads hc unread.1 unread.2)
  have once := h.part.once d
  simp only [list, reads_append, reads_cons, readsByte_dfaCompare, hpost.reads_eq_zero, Bool.toNat_false,
    Nat.add_zero] at unread
  exact h.detected (workAfter_corrupt_data_ne h.part h.bytes_eq.1 unread.1 (by omega) hv)

end Sys2Proof.Machine
end

section
/-!
SUPPORT. The driver's own micro-steps on every state (43_driver R150, R156), the SEED command as a whole, and that
decryption and encryption undo each other (R151 to R154, R158).
-/
namespace Sys2Proof.Machine

/-! ### XOR_IV on every state (R150) -/

/-- The frame of a pass with a second operand (`combine_spec`), where only the read after the target's is known. -/
theorem combine_frame {s : State} {x : Target} {g : State → Block × State} {fs : List Fault}
    (hg : (g (s.readTarget x).2).2 =
      { s with faults := s.faults ++ s.targetFaults x ++ fs, draws := (g (s.readTarget x).2).2.draws }) :
    s.combine x g =
      { s.writeTarget x ((s.combine x g).bytesOf x) with
        faults := s.faults ++ s.targetFaults x ++ fs, draws := (s.combine x g).draws } := by
  simp only [State.combine, bytesOf_writeTarget]
  rw [hg]
  cases x <;> rfl

/-- Reading a target leaves what reading IV sees. -/
theorem sees_readIv_readTarget (s : State) (x : Target) :
    sees s.iv s.written.iv (s.readTarget x).2.readIv.1 := by
  rw [(readTarget_spec s x).2]
  exact (coreRead_spec _ .iv 0 s.iv s.written.iv).1

/-- IV's faults come after the target's (R205), and nothing else changes. -/
theorem xorIv_frame (s : State) (x : Target) :
    s.combine x State.readIv =
      { s.writeTarget x ((s.combine x State.readIv).bytesOf x) with
        faults := s.faults ++ s.targetFaults x ++ lostReads .iv 0 s.written.iv
        draws := (s.combine x State.readIv).draws } := by
  refine combine_frame ?_
  rw [(readTarget_spec s x).2]
  exact coreRead_frame _ .iv 0 s.iv s.written.iv

/-- Settles O31: the pass adds what it sees of IV to what it sees of the target. -/
theorem xorIvAddsTheIv : Obligations.XorIvAddsTheIv := by
  intro s x
  refine ⟨s.combine x State.readIv, (s.readTarget x).1, (s.readTarget x).2.readIv.1, rfl, (readTarget_spec s x).1,
    sees_readIv_readTarget s x, fun j => ?_, xorIv_frame s x⟩
  simp [State.combine, xorBlock]

/-! ### PRNG_SEED and the SEED command (R156) -/

/-- Settles O37: PRNG_SEED seeds the generator with what it reads of SEED. -/
theorem prngSeedSeedsTheGenerator : Obligations.PrngSeedSeedsTheGenerator := by
  unfold Obligations.PrngSeedSeedsTheGenerator
  intro s
  have read : s.readSeed.2 =
      { s with faults := s.faults ++ lostReads .seed 0 s.written.seed, draws := s.readSeed.2.draws } :=
    coreRead_frame ..
  exact ⟨s.readSeed.2.putPrng (Config.prngSeed s.readSeed.1), s.readSeed.1, rfl,
    (coreRead_spec s .seed 0 s.seed s.written.seed).1, congrArg (·.putPrng (Config.prngSeed s.readSeed.1)) read⟩

/-- PRNG_SEED where SEED is written: the generator is seeded, and nothing else changes (R156). -/
theorem exec_prngSeed_of_written {s : State} (h : s.seedWritten) :
    exec .prngSeed s = .next (s.putPrng (Config.prngSeed s.seed)) := by
  simp only [exec, execPrngSeed, readSeed_of_written h]

/-- Settles O38: the accepted list is the one PRNG_SEED, after which the command ends. -/
theorem seedCommandSeedsTheGenerator : Obligations.SeedCommandSeedsTheGenerator := by
  unfold Obligations.SeedCommandSeedsTheGenerator
  intro s idle turns written
  have seeds := exec_prngSeed_of_written
    (s := ((s.accept .seed).putSeq (.running .seed [])).note (.core .prngSeed)) written
  have run := FinishesIn.cons (s := s.accept .seed) rfl rfl turns seeds (.nil rfl)
  obtain ⟨u, hu, busy⟩ := run.before 0 Nat.one_pos
  cases hu
  refine ⟨busy, run.run.trans ?_⟩
  simp [State.endCommand, Command.isCipher, State.accept, State.putSeq, State.note, State.putPrng, idle]

/-! ### Decryption and encryption (R151 to R154, R158) -/

theorem invRoundFn_roundFn (x k : Block) : invRoundFn (roundFn x k) k = x := by
  simp only [invRoundFn, roundFn, xorBlock_xorBlock, invMixColumns_mixColumns, invShiftRows_shiftRows,
    invSubBytes_subBytes]

theorem roundFn_invRoundFn (x k : Block) : roundFn (invRoundFn x k) k = x := by
  simp only [invRoundFn, roundFn, subBytes_invSubBytes, shiftRows_invShiftRows, mixColumns_invMixColumns,
    xorBlock_xorBlock]

theorem firstInvRoundFn_lastRoundFn (x k : Block) : firstInvRoundFn (lastRoundFn x k) k = x := by
  simp only [firstInvRoundFn, lastRoundFn, xorBlock_xorBlock, invShiftRows_shiftRows, invSubBytes_subBytes]

theorem lastRoundFn_firstInvRoundFn (x k : Block) : lastRoundFn (firstInvRoundFn x k) k = x := by
  simp only [firstInvRoundFn, lastRoundFn, subBytes_invSubBytes, shiftRows_invShiftRows, xorBlock_xorBlock]

/-- Steps that `g` undoes one by one are undone by `g` in reverse order. -/
theorem foldl_reverse_foldl {α β : Type} {f g : α → β → α} (undo : ∀ x b, g (f x b) b = x) (l : List β) (x : α) :
    l.reverse.foldl g (l.foldl f x) = x := by
  induction l generalizing x with
  | nil => rfl
  | cons b l ih => rw [List.foldl_cons, List.reverse_cons, List.foldl_append, List.foldl_cons, List.foldl_nil, ih, undo]

theorem foldl_foldl_reverse {α β : Type} {f g : α → β → α} (undo : ∀ x b, f (g x b) b = x) (l : List β) (x : α) :
    l.foldl f (l.reverse.foldl g x) = x := by
  simpa only [List.reverse_reverse] using foldl_reverse_foldl undo l.reverse x

/-- Decryption undoes the last round, the inner rounds from the last to the first, and the first key addition. -/
theorem dec_enc (x : Block) (r : Sched) : dec (enc x r) r = x := by
  rw [dec, enc, firstInvRoundFn_lastRoundFn, foldl_reverse_foldl fun x n => invRoundFn_roundFn x (roundKey r n),
    xorBlock_xorBlock]

theorem enc_dec (x : Block) (r : Sched) : enc (dec x r) r = x := by
  rw [enc, dec, xorBlock_xorBlock, foldl_foldl_reverse fun x n => roundFn_invRoundFn x (roundKey r n),
    lastRoundFn_firstInvRoundFn]

/-- Settles O41: the rounds undo each other under the same key, and CBC's addition of IV undoes itself. -/
theorem decryptionInvertsEncryption : Obligations.DecryptionInvertsEncryption := by
  unfold Obligations.DecryptionInvertsEncryption
  intro x iv r
  refine ⟨dec_enc x r, enc_dec x r, ?_, ?_⟩
  · rw [netEffect, netEffect, dec_enc, xorBlock_xorBlock]
  · rw [netEffect, netEffect, xorBlock_xorBlock, enc_dec]

end Sys2Proof.Machine
end

section
/-!
SUPPORT. The countermeasures' micro-steps on every state (44_countermeasures R171, R172, R175, R181, R182):
IDLE, the snapshot and the comparison, and what DELAY and a call group expand to.
-/
namespace Sys2Proof.Machine

/-- Settles O43: IDLE's arm answers the state it is given. -/
theorem idleChangesNothing : Obligations.IdleChangesNothing := fun _ => rfl

/-! ### The snapshot and the comparison (R181, R182) -/

/-- Settles O49: DFA_COPY takes what the snapshot reads of STATE. -/
theorem snapshotCopiesState : Obligations.SnapshotCopiesState := by
  unfold Obligations.SnapshotCopiesState
  intro s
  obtain ⟨sees, read⟩ := readTarget_spec s .state
  exact ⟨s.readState.2.putDfaCopy s.readState.1, s.readState.1, rfl, sees, congrArg (·.putDfaCopy s.readState.1) read⟩

theorem exec_dfaCompare_of_eq {s : State} (h : s.readState.1 = s.dfaCopy) :
    exec .dfaCompare s = .next s.readState.2 := if_pos h

theorem exec_dfaCompare_of_ne {s : State} (h : s.readState.1 ≠ s.dfaCopy) :
    exec .dfaCompare s = .next (s.readState.2.putState zeroBlock).countMismatch := if_neg h

/-- Settles O50: on a match the comparison is the read of STATE, on a mismatch the zero block is written after it. -/
theorem compareZeroesOnMismatch : Obligations.CompareZeroesOnMismatch := by
  unfold Obligations.CompareZeroesOnMismatch
  intro s
  obtain ⟨sees, read⟩ := readTarget_spec s .state
  by_cases same : s.readState.1 = s.dfaCopy
  · exact ⟨_, s.readState.1, exec_dfaCompare_of_eq same, sees, fun _ => read, fun differ => absurd same differ⟩
  · exact ⟨_, s.readState.1, exec_dfaCompare_of_ne same, sees, fun equal => absurd equal same,
      fun _ => congrArg (fun r => (r.putState zeroBlock).countMismatch) read⟩

/-! ### DELAY (R172) -/

theorem delayMin_le_delayMax (k : DelayClass) : Config.delayMin k ≤ Config.delayMax k := by
  cases k with
  | short | dualComputation => exact Nat.le_add_right ..
  | long => exact Nat.le_trans (Nat.le_max_left ..) (Nat.le_add_right ..)

theorem delayMax_short_le_long : Config.delayMax .short ≤ Config.delayMax .long :=
  Nat.le_trans (Nat.le_max_right ..) (Nat.le_add_right ..)

theorem exec_delay_of_running {s : State} {c : Command} {rest : List Instr} (hs : s.seq = .running c rest)
    (k : DelayClass) :
    exec (.delay k) s = .next ((s.spend 1).redrawPrng.putSeq (.running c
      (List.replicate (s.drawIn (Config.delayMin k) (Config.delayMax k)).1 .idle ++ rest))) := by
  have expand := expanded_of_busy (busy_of_running hs) (·.expandDelay k)
  rw [State.expandDelay, prepend_running (by simpa using hs)] at expand
  exact expand

/-- Settles O44: the number of ticks is a draw between the class's bounds. -/
theorem delayExpandsToIdleTicks : Obligations.DelayExpandsToIdleTicks := by
  unfold Obligations.DelayExpandsToIdleTicks
  refine ⟨fun s c rest k hs => ?_, delayMin_le_delayMax, delayMax_short_le_long⟩
  exact ⟨(s.drawIn (Config.delayMin k) (Config.delayMax k)).1, _, Nat.le_add_right ..,
    drawIn_le s (delayMin_le_delayMax k), exec_delay_of_running hs k, rfl⟩

/-! ### DECOY_GROUP (R175) -/

/-- The invocation at `pos` is the real one, every other a decoy. -/
theorem groupExpansion_eq_flatMap (kind : RoundKind) (x : Target) (n : Fin 11) (cnt pos : Nat) :
    groupExpansion kind x n cnt pos = (List.range cnt).flatMap fun j =>
      if j = pos then [roundWord kind x (.round n)] else [.decoyFill, roundWord kind .scrState .scratch] := by
  simp only [groupExpansion, invocation, beq_iff_eq]

/-- The number of invocations a call group draws. -/
def State.groupSize (s : State) : Nat := (s.drawIn 1 3).1

/-- The position of the real invocation, drawn after the group's size. -/
def State.groupPos (s : State) : Nat := ((s.spend 1).drawIn 0 (s.groupSize - 1)).1

theorem groupPos_lt_groupSize (s : State) : s.groupPos < s.groupSize := by
  have last : s.groupPos ≤ s.groupSize - 1 := drawIn_le _ (Nat.zero_le _)
  have first : 1 ≤ s.groupSize := Nat.le_add_right ..
  omega

theorem exec_decoyGroup_of_running {s : State} {c : Command} {rest : List Instr} (hs : s.seq = .running c rest)
    (kind : RoundKind) (x : Target) (n : Fin 11) :
    exec (.decoyGroup kind x n) s = .next (((s.spend 1).spend 1).redrawPrng.putSeq (.running c
      (groupExpansion kind x n s.groupSize s.groupPos ++ rest))) := by
  have expand := expanded_of_busy (busy_of_running hs) (·.expandGroup kind x n)
  rw [State.expandGroup, prepend_running (by simpa using hs)] at expand
  exact expand

/-- Settles O45: size and position are draws, the position one within the group. -/
theorem decoyGroupHasOneRealInvocation : Obligations.DecoyGroupHasOneRealInvocation := by
  unfold Obligations.DecoyGroupHasOneRealInvocation
  intro s c rest kind x n hs
  refine ⟨s.groupSize, s.groupPos, _, Nat.le_add_right .., drawIn_le s (by decide), groupPos_lt_groupSize s,
    exec_decoyGroup_of_running hs kind x n, ?_⟩
  rw [groupExpansion_eq_flatMap]
  rfl

end Sys2Proof.Machine
end

section
/-!
SUPPORT. What a decoy invocation and a call group compute (44_countermeasures R176, R177): a decoy changes the scratch
buffers and the draws alone, and a real invocation needs neither.
-/
namespace Sys2Proof.Machine

/-! ### Lists performed one after another -/

theorem execAll_append {l : List Instr} {s t : State} (h : execAll l s = .next t) (m : List Instr) :
    execAll (l ++ m) s = execAll m t := by
  induction l generalizing s with
  | nil =>
    cases h
    rfl
  | cons i l ih =>
    cases he : exec i s with
    | next r =>
      simp only [execAll, he] at h
      simp only [List.cons_append, execAll, he, ih h]
    | fault | refused => simp [execAll, he] at h

/-- On a target and a key that can be read, the passes of a kind write its net effect (R140 to R143). -/
theorem execAll_roundPasses_of_ready {s : State} {x : Target} {k : KeySel} (target : s.targetReady x)
    (key : s.keyReady k) (kind : RoundKind) :
    execAll (roundPasses kind x k) s = .next (s.writeTarget x (kindFn kind (s.bytesOf x) (s.keyBytes k))) := by
  have passes := execAll_roundPasses key kind x (s.bytesOf x)
  rwa [writeTarget_bytesOf target] at passes

/-- The passes of a decoy read and write the scratch buffers alone. -/
theorem execAll_decoyPasses (kind : RoundKind) (s : State) :
    execAll (roundPasses kind .scrState .scratch) s =
      .next { s with scrState := kindFn kind s.scrState s.scrKey } :=
  execAll_roundPasses_of_ready (x := .scrState) (k := .scratch) nofun trivial kind

/-! ### A call group -/

/-- `t` differs from `s` in the scratch buffers, `prng` and the count of draws at most. -/
def ScratchOnly (s t : State) : Prop :=
  ∃ y z p d, t = { s with scrState := y, scrKey := z, prng := p, draws := d }

theorem ScratchOnly.refl (s : State) : ScratchOnly s s := ⟨_, _, _, _, rfl⟩

theorem ScratchOnly.trans {s t u : State} (h : ScratchOnly s t) (k : ScratchOnly t u) : ScratchOnly s u := by
  obtain ⟨_, _, _, _, rfl⟩ := h
  obtain ⟨y, z, p, d, rfl⟩ := k
  exact ⟨y, z, p, d, rfl⟩

/-- What one invocation of a group performs, its round kind expanded: the real one at `pos`, elsewhere a decoy (R175). -/
def invocationPasses (kind : RoundKind) (x : Target) (n : Fin 11) (pos j : Nat) : List Instr :=
  if j = pos then roundPasses kind x (.round n) else .decoyFill :: roundPasses kind .scrState .scratch

section Group

variable {kind : RoundKind} {x : Target} {n : Fin 11} {pos : Nat}

/-- Filling the scratch buffers and working on them (R176). -/
theorem scratchOnly_decoy (kind : RoundKind) (s : State) :
    ∃ t, execAll (.decoyFill :: roundPasses kind .scrState .scratch) s = .next t ∧ ScratchOnly s t := by
  simp only [execAll, decoyFillFillsTheScratchBuffers s, execAll_decoyPasses]
  exact ⟨_, rfl, _, _, _, _, rfl⟩

/-- Invocations at other places than the real one's. -/
theorem scratchOnly_decoys {l : List Nat} (h : pos ∉ l) (s : State) :
    ∃ t, execAll (l.flatMap (invocationPasses kind x n pos)) s = .next t ∧ ScratchOnly s t := by
  induction l generalizing s with
  | nil => exact ⟨s, rfl, .refl s⟩
  | cons j l ih =>
    obtain ⟨first, later⟩ := List.ne_and_not_mem_of_not_mem_cons h
    obtain ⟨r, hr, filled⟩ := scratchOnly_decoy kind s
    obtain ⟨t, ht, decoys⟩ := ih later r
    refine ⟨t, ?_, filled.trans decoys⟩
    rw [List.flatMap_cons, invocationPasses, if_neg (Ne.symm first), execAll_append hr, ht]

/-- The real invocation does the same where only the scratch buffers and the draws differ (R177). -/
theorem scratchOnly_real {s r : State} (real : x ≠ .scrState) (target : s.targetReady x) (key : s.keyReady (.round n))
    (h : ScratchOnly s r) :
    ∃ t u, execAll (roundPasses kind x (.round n)) r = .next t ∧
      execAll (roundPasses kind x (.round n)) s = .next u ∧ ScratchOnly u t := by
  obtain ⟨y, z, p, d, rfl⟩ := h
  refine ⟨_, _, execAll_roundPasses_of_ready (s := { s with scrState := y, scrKey := z, prng := p, draws := d })
    target key kind, execAll_roundPasses_of_ready target key kind, ?_⟩
  cases x with
  | state | dfaCopy => exact ⟨y, z, p, d, rfl⟩
  | scrState => exact absurd rfl real

/-- The positions of a group, split at the real invocation's. -/
theorem range_eq_append_cons {cnt : Nat} (h : pos < cnt) :
    ∃ l m, List.range cnt = l ++ pos :: m ∧ pos ∉ l ∧ pos ∉ m := by
  obtain ⟨l, m, split⟩ := List.append_of_mem (List.mem_range.2 h)
  have distinct : (l ++ pos :: m).Nodup := split ▸ List.nodup_range
  obtain ⟨-, tail, apart⟩ := List.nodup_append.1 distinct
  exact ⟨l, m, split, fun hl => apart pos hl pos List.mem_cons_self rfl, (List.nodup_cons.1 tail).1⟩

/-- A group performs decoys, the real invocation, and decoys. -/
theorem scratchOnly_group {s : State} {cnt : Nat} (hpos : pos < cnt) (real : x ≠ .scrState) (target : s.targetReady x)
    (key : s.keyReady (.round n)) :
    ∃ t u, execAll ((List.range cnt).flatMap (invocationPasses kind x n pos)) s = .next t ∧
      execAll (roundPasses kind x (.round n)) s = .next u ∧ ScratchOnly u t := by
  obtain ⟨l, m, split, before, after⟩ := range_eq_append_cons hpos
  obtain ⟨r, hr, decoys⟩ := scratchOnly_decoys (kind := kind) (x := x) (n := n) before s
  obtain ⟨r', u, hr', hu, same⟩ := scratchOnly_real (kind := kind) real target key decoys
  obtain ⟨t, ht, decoys'⟩ := scratchOnly_decoys (kind := kind) (x := x) (n := n) after r'
  refine ⟨t, u, ?_, hu, same.trans decoys'⟩
  rw [split, List.flatMap_append, execAll_append hr, List.flatMap_cons, invocationPasses, if_pos rfl,
    execAll_append hr', ht]

end Group

/-- Settles O47: a decoy's passes read and write the scratch buffers, and the real invocation does the same
after any decoys. -/
theorem decoysTouchOnlyTheScratchBuffers : Obligations.DecoysTouchOnlyTheScratchBuffers := by
  unfold Obligations.DecoysTouchOnlyTheScratchBuffers
  refine ⟨fun s kind => ⟨kindFn kind s.scrState s.scrKey, execAll_decoyPasses kind s, fun u state key => ?_⟩,
    fun s kind x n cnt pos hpos real target key => ?_⟩
  · rw [execAll_decoyPasses, state, key]
  · obtain ⟨t, u, ht, hu, _, _, _, _, rfl⟩ := scratchOnly_group (kind := kind) hpos real target key
    exact ⟨_, u, ht, hu, rfl⟩

end Sys2Proof.Machine
end

section
/-!
SUPPORT. A fault event (44_countermeasures R190, R191): which byte it replaces, what it leaves, and which events a fault
model admits.
-/
namespace Sys2Proof.Machine

/-! ### The replaced byte and the others -/

section Corrupt

variable (s : State) {b b' : HwByte} (v : Byte)

/-- A fault event and a host's write leave the same bytes in the data buffers. -/
theorem byteAt_corrupt_data (d d' : DataByte) :
    (s.corrupt (.data d) v).byteAt d' = (s.storeByte d v).byteAt d' := by
  cases d <;> rfl

theorem hwByteAt_corrupt : (s.corrupt b v).hwByteAt b = v := by
  cases b with
  | data d => exact (byteAt_corrupt_data s v d d).trans (byteAt_storeByte s v)
  | dfaCopy j | scrState j | scrKey j => exact Vector.getElem_set_self _

theorem hwByteAt_corrupt_of_ne (h : b' ≠ b) : (s.corrupt b v).hwByteAt b' = s.hwByteAt b' := by
  cases b <;> cases b'
  case data.data d d' =>
    exact (byteAt_corrupt_data s v d d').trans (storeByte_of_ne s v fun e => h (congrArg _ e)).1
  case dfaCopy.dfaCopy | scrState.scrState | scrKey.scrKey => exact getElem_set_of_ne _ _ fun e => h (congrArg _ e)
  case data.dfaCopy d _ | data.scrState d _ | data.scrKey d _ => cases d <;> rfl
  all_goals rfl

/-- Of the model's own fields a fault event counts in `injections` alone, and of the core's it touches the buffers. -/
theorem corrupt_frame (b : HwByte) :
    s.corrupt b v = { s with
      state := (s.corrupt b v).state, iv := (s.corrupt b v).iv, key := (s.corrupt b v).key,
      seed := (s.corrupt b v).seed, sched := (s.corrupt b v).sched, dfaCopy := (s.corrupt b v).dfaCopy,
      scrState := (s.corrupt b v).scrState, scrKey := (s.corrupt b v).scrKey, injections := s.injections + 1 } := by
  cases b with
  | data d => cases d <;> rfl
  | dfaCopy | scrState | scrKey => rfl

end Corrupt

/-! ### The turn -/

/-- `settle` has nothing to do where the sequencer's invariant holds (R76). -/
theorem settle_of_seqOk {s : State} (h : s.seqOk = true) : settle s = s := by
  cases hs : s.seq with
  | idle => exact settle_of_idle hs
  | running c l =>
    cases l with
    | nil => cases (seqOk_eq_false_of_nil hs).symm.trans h
    | cons u rest => exact settle_of_head hs ((seqOk_iff_of_running hs).1 h).2.1

theorem seqOk_corrupt (s : State) (b : HwByte) (v : Byte) : (s.corrupt b v).seqOk = s.seqOk := by
  rw [corrupt_frame]
  rfl

section Turn

variable {s : State} {b : HwByte} {v : Byte}

/-- An event that is admitted replaces the byte, and leaves the list, so nothing is due to be expanded. -/
theorem step_of_admitted (turn : s.nextTurn = .corrupt b v) (ok : s.seqOk = true)
    (admitted : s.admitsInjection b v = true) :
    step s = .next ((s.dropTurn.corrupt b v).note (.corrupt b v)) := by
  have taken : corruptTurn b v s.dropTurn = .next ((s.dropTurn.corrupt b v).note (.corrupt b v)) := if_pos admitted
  have settled : ((s.dropTurn.corrupt b v).note (.corrupt b v)).seqOk = true :=
    (seqOk_corrupt s.dropTurn b v).trans ok
  rw [step, turn, takeTurn, taken, mapNext, settle_of_seqOk settled]

theorem step_of_not_admitted (turn : s.nextTurn = .corrupt b v) (denied : s.admitsInjection b v = false) :
    step s = .refused .injectionNotAdmitted := by
  have taken : corruptTurn b v s.dropTurn = .refused .injectionNotAdmitted :=
    if_neg (Bool.eq_false_iff.1 denied)
  rw [step, turn, takeTurn, taken, mapNext]

/-- STATUS reads 0x01 exactly while BUSY is 1 (R28). -/
theorem statusByte_eq_one_iff : s.statusByte = 0x01#8 ↔ s.busy = true := by
  unfold State.statusByte
  split <;> simp [*]

/-- The events each fault model admits (R190). -/
theorem admitsInjection_iff :
    s.admitsInjection b v = true ↔
      (s.faultModel = .onePerCommand ∧ s.statusByte = 0x01#8 ∧ s.injections = 0) ∨ s.faultModel = .any ∨
        (s.faultModel = .given ∧ Config.givenFaultModel s.config s.past b v = true) := by
  cases hm : s.faultModel <;> simp [State.admitsInjection, hm, statusByte_eq_one_iff]

end Turn

/-- Settles O15: the step of an admitted event is `State.corrupt`, which replaces one byte. -/
theorem corruptionReplacesOneByte : Obligations.CorruptionReplacesOneByte := by
  unfold Obligations.CorruptionReplacesOneByte
  refine fun s b v turn ok => ⟨fun admitted => ?_, step_of_not_admitted turn, admitsInjection_iff⟩
  refine ⟨_, step_of_admitted turn ok admitted, hwByteAt_corrupt s.dropTurn v,
    fun b' other => hwByteAt_corrupt_of_ne s.dropTurn v other, ?_⟩
  exact congrArg (·.note (.corrupt b v)) (corrupt_frame s.dropTurn v b)

end Sys2Proof.Machine
end

section
/-!
SUPPORT. Where a mismatch is counted (44_countermeasures R182, 60_exceptions R201): of all instructions by DFA_COMPARE
alone, of all agents by the sequencer alone.
-/
namespace Sys2Proof.Machine

theorem mismatch_of_exec {i : Instr} {s t : State} (hi : i ≠ .dfaCompare) (h : exec i s = .next t) :
    t.mismatch = s.mismatch := by
  cases Effect.of_exec h with
  | work hw | schedule _ hw => exact hw.mismatch
  | mismatch => exact absurd rfl hi
  | expansion _ hh =>
    obtain ⟨_, _, _, _, _, _, rfl⟩ := hh
    rfl
  | store _ d => cases d <;> rfl
  | accept | refuse => rfl

/-- A comparison that counts a mismatch leaves STATE zero (R182). -/
theorem state_of_dfaCompare {s t : State} (h : exec .dfaCompare s = .next t) (counted : t.mismatch ≠ s.mismatch) :
    t.state = zeroBlock := by
  by_cases same : s.readState.1 = s.dfaCopy
  · cases (exec_dfaCompare_of_eq same).symm.trans h
    exact absurd rfl counted
  · cases (exec_dfaCompare_of_ne same).symm.trans h
    rfl

/-! ### The other agents' turns -/

/-- A word of DFA_COMPARE is a micro-step word (R77). -/
theorem eq_ustep_of_decode_dfaCompare {w : RawWord} (h : decode w = .ok .dfaCompare) : ∃ u, w = .ustep u := by
  obtain ⟨-, word | ⟨_, _, read, -⟩⟩ := decodedWordsAreWellFormedAndUnique w .dfaCompare h
  · exact ⟨_, word.symm⟩
  · cases read

theorem decodeHost_ne_dfaCompare (w : BitVec 17) : decodeHost w ≠ .dfaCompare := by
  intro h
  obtain ⟨_, word⟩ := eq_ustep_of_decode_dfaCompare (w := .host w) (congrArg Except.ok h)
  cases word

theorem ne_dfaCompare_of_decodeFunction {f : BitVec 32} {i : Instr} (h : decodeFunction f = .ok i) :
    i ≠ .dfaCompare := by
  rintro rfl
  obtain ⟨_, word⟩ := eq_ustep_of_decode_dfaCompare (w := .func f) h
  cases word

theorem mismatch_of_hostTurn {s t : State} (h : hostTurn s = .next t) : t.mismatch = s.mismatch := by
  unfold hostTurn at h
  split at h
  · cases h
    rfl
  · obtain ⟨r, hr, rfl⟩ := mapNext_next h
    have transaction := mismatch_of_exec (decodeHost_ne_dfaCompare _) hr
    exact (OutsideOnly.bindRead r _).coreWork.mismatch.trans transaction
  · obtain ⟨r, hr, rfl⟩ := mapNext_next h
    have poll := mismatch_of_exec (i := .hostRd statusAddress) nofun hr
    exact (OutsideOnly.afterPoll r _).coreWork.mismatch.trans poll

theorem mismatch_of_funcTurn {f : BitVec 32} {s t : State} (h : funcTurn f s = .next t) :
    t.mismatch = s.mismatch := by
  unfold funcTurn at h
  split at h
  next i hi => exact mismatch_of_exec (s := s.note (.func f)) (ne_dfaCompare_of_decodeFunction hi) h
  · cases h

theorem mismatch_of_corruptTurn {b : HwByte} {v : Byte} {s t : State} (h : corruptTurn b v s = .next t) :
    t.mismatch = s.mismatch := by
  unfold corruptTurn at h
  split at h
  · cases h
    exact corrupt_mismatch s b v
  · cases h

theorem mismatch_of_takeTurn {a : Turn} {s t : State} (ha : a ≠ .core) (h : takeTurn a s = .next t) :
    t.mismatch = s.mismatch := by
  cases a with
  | host => exact mismatch_of_hostTurn h
  | core => exact absurd rfl ha
  | reset =>
    cases h
    exact envReset_mismatch s
  | corrupt b v => exact mismatch_of_corruptTurn h
  | func f => exact mismatch_of_funcTurn h

/-! ### The sequencer's turn -/

/-- The sequencer counts a mismatch in performing a comparison, which zeroes STATE. -/
theorem dfaCompare_of_coreTurn {s t : State} (h : coreTurn s = .next t) (counted : t.mismatch ≠ s.mismatch) :
    (∃ c rest, s.seq = .running c (.dfaCompare :: rest)) ∧ t.state = zeroBlock := by
  cases TurnEffect.of_coreTurn h with
  | silent => exact absurd rfl counted
  | instr ha => exact absurd rfl ha
  | @microStep c u rest _ hs he =>
    obtain rfl : u = .dfaCompare := Classical.byContradiction fun other => by
      have kept := mismatch_of_exec other he
      exact counted kept
    exact ⟨⟨c, rest, hs⟩, state_of_dfaCompare he counted⟩

/-- A build's list holds a comparison only with ANTIDFA_EN (R79, R181). -/
theorem antidfaEn_of_dfaCompare {s : State} {c : Command} {rest : List Instr} (ok : s.seqOk = true)
    (hs : s.seq = .running c (.dfaCompare :: rest)) : s.config.antidfaEn = true := by
  obtain ⟨-, -, entries⟩ := (seqOk_iff_of_running hs).1 ok
  exact (Bool.and_eq_true_iff.1 (AllProduced.cons_iff.1 entries).1).2

/-- Settles O51: `settle` leaves STATE and the count, and of the turns only the sequencer's comparison counts one. -/
theorem mismatchComesOnlyFromCompare : Obligations.MismatchComesOnlyFromCompare := by
  unfold Obligations.MismatchComesOnlyFromCompare
  intro s t ok h counted
  obtain ⟨r, hr, rfl⟩ := step_next h
  have settled : (settle r).mismatch = r.mismatch ∧ (settle r).state = r.state := by
    obtain ⟨_, _, _, _, _, _, only⟩ := settle_only r
    rw [only]
    exact ⟨rfl, rfl⟩
  rw [settled.1] at counted
  have core : s.nextTurn = .core := Classical.byContradiction fun other => by
    have kept := mismatch_of_takeTurn other hr
    exact counted kept
  rw [core] at hr
  obtain ⟨⟨c, rest, hs⟩, zero⟩ := dfaCompare_of_coreTurn (s := s.dropTurn) hr counted
  exact ⟨core, ⟨c, rest, hs⟩, antidfaEn_of_dfaCompare ok hs, settled.2.trans zero⟩

end Sys2Proof.Machine
end

section
/-!
SUPPORT. Progress under the sequencer's invariant (60_exceptions R200, R209): the turns of the host and the sequencer
answer with a state, and `settle` only goes on from it.
-/
namespace Sys2Proof.Machine

/-- A transaction is a write or a read (R74), and each answers. -/
theorem exec_decodeHost_answers (w : BitVec 17) (s : State) : ∃ t, exec (decodeHost w) s = .next t := by
  unfold decodeHost
  split <;> exact ⟨_, rfl⟩

/-- The host's turn answers in every state: all its words are legal (R74), and a poll is a read (R83). -/
theorem hostTurn_answers (s : State) : ∃ t, hostTurn s = .next t := by
  cases lines : s.host with
  | nil => exact ⟨s, by simp only [hostTurn, lines]⟩
  | cons line rest =>
    cases line with
    | txn w =>
      obtain ⟨r, he⟩ := exec_decodeHost_answers w ({ s with host := rest }.note (.host w))
      exact ⟨r.bindRead (decodeHost w), by simp only [hostTurn, lines, he, mapNext]⟩
    | wait =>
      obtain ⟨r, he, -⟩ := exec_hostRd_hostOnly (s.note .poll) statusAddress
      exact ⟨r.afterPoll rest, by simp only [hostTurn, lines, he, mapNext]⟩

/-- The head the sequencer performs is a produced entry and no macro (R76, R79), so it answers. -/
theorem coreTurn_answers {s : State} (ok : s.seqOk = true) : ∃ t, coreTurn s = .next t := by
  cases hs : s.seq with
  | idle => exact ⟨s, by simp only [coreTurn, hs]⟩
  | running c l =>
    cases l with
    | nil => cases (seqOk_eq_false_of_nil hs).symm.trans ok
    | cons u rest =>
      obtain ⟨-, head, entries⟩ := (seqOk_iff_of_running hs).1 ok
      have performed := (AllProduced.cons_iff.1 entries).1
      simpa only [coreTurn, hs] using exec_answers head performed ((s.putSeq (.running c rest)).note (.core u))

/-- A step stops only where its turn does. -/
theorem step_answers {s : State} (taken : ∃ r, takeTurn s.nextTurn s.dropTurn = .next r) : ∃ t, step s = .next t := by
  obtain ⟨r, hr⟩ := taken
  exact ⟨settle r, by rw [step, hr, mapNext]⟩

/-- Settles O10: by the turn; only the sequencer's needs the invariant. -/
theorem noTurnOfTheCoreOrHostStops : Obligations.NoTurnOfTheCoreOrHostStops := by
  unfold Obligations.NoTurnOfTheCoreOrHostStops
  intro s ok turn
  have dropped : s.dropTurn.seqOk = true := ok
  obtain host | core | reset := turn
  · exact step_answers (host ▸ hostTurn_answers s.dropTurn)
  · exact step_answers (core ▸ coreTurn_answers dropped)
  · exact ⟨_, step_of_reset reset⟩

end Sys2Proof.Machine
end
